-- ==== Sys2Proof/Word.lean ====
section
/-! DEFINITION. The word types of the EAC3-LC engine (spec/00_scope.md R7). -/

namespace Sys2Proof

/-- A host-visible register, `REG_W = 32` bits (R7). -/
abbrev Word := BitVec 32

/-- A buffer element, 8 bits (R7). -/
abbrev Byte := BitVec 8

/-- A CRC value, 16 bits (R7). -/
abbrev Crc := BitVec 16

end Sys2Proof
end

