-- ==== Sys2Proof/Config.lean ====
section
/-! DEFINITION. What an implementation fixes: the constants of spec/00_scope.md R8, the identifier of
spec/10_state.md R25, the OPEN parameter `BUF_CAP` (R6) and the bytes of `BUF` at power-on (R201). -/

namespace Sys2Proof.Config

/-- `POLY`: the CRC generator polynomial, MSB-first, the x^16 term implicit (R8). -/
abbrev poly : Crc := 0x8005#16

/-- `CRC_INIT_FRAME`: the seed of each frame's checksum (R8). -/
abbrev crcInitFrame : Crc := 0x0000#16

/-- `SYNC_HI`: the first byte of the syncword (R8). -/
abbrev syncHi : Byte := 0x0B#8

/-- `SYNC_LO`: the second byte of the syncword (R8). -/
abbrev syncLo : Byte := 0x77#8

/-- `MIN_REMAIN`: the bytes that must remain from the cursor for a frame iteration (R8). -/
abbrev minRemain : Nat := 5

/-- `RESYNC_WINDOW`: the bytes of look-ahead for a lost marker (R8). -/
abbrev resyncWindow : Nat := 4096

/-- `FRMSIZ_W`: the width of the frame-size field (R8). -/
abbrev frmsizWidth : Nat := 11

/-- `FLAG_BIT`: the frame-relative bit offset of the flag that is set (R8). -/
abbrev flagBit : Nat := 61

/-- `CHMAP_HI_BIT`: the frame-relative bit offset of the first channel-map byte write (R8). -/
abbrev chmapHiBit : Nat := 62

/-- `CHMAP_LO_BIT`: the frame-relative bit offset of the second channel-map byte write (R8). -/
abbrev chmapLoBit : Nat := 70

/-- `CHMAP_HI`: the first channel-map byte written (R8). -/
abbrev chmapHi : Byte := 0x68#8

/-- `CHMAP_LO`: the second channel-map byte written (R8). -/
abbrev chmapLo : Byte := 0x00#8

/-- `CHMAP_VALUE`: the 16-bit channel map at frame-relative bits 62..77 (R8). -/
abbrev chmapValue : BitVec 16 := 0x6800#16

/-- What `ID` reads: the ASCII bytes "LC16" (spec/10_state.md R25). -/
abbrev idValue : Word := 0x4C433136#32

/-- `BUF_CAP - 1`, OPEN (R6, U14): nothing in Lean can evaluate it. 29 bits hold exactly the
legal capacities' predecessors. -/
opaque bufCapPred : BitVec 29

/-- `BUF_CAP`, the capacity of the buffer in bytes, `1 <= BUF_CAP <= 2^29` (R6). -/
def bufCap : Nat := bufCapPred.toNat + 1

/-- The byte a buffer address holds from power-on on until something writes it, a FREE VALUE (R201,
U1): `powerOnByte draw a` is the byte of address `a` after the power-on numbered `draw`. -/
opaque powerOnByte : Nat → Nat → Byte

end Sys2Proof.Config
end

