-- ==== Sys2Proof/Syntax.lean ====
section
/-! DEFINITION. The instructions of the EAC3-LC engine: the ten commands of spec/opcode_table.json
(spec/30_encoding.md R71). A command word carries no operand field (R70); operands come from registers. -/

namespace Sys2Proof

/-- The commands, one constructor per row of the opcode table, in its order (R71). -/
inductive Instr where
  /-- `GET_BIT`: read one bit of the buffer (R100). -/
  | getBit
  /-- `SET_BIT`: set or clear one bit of the buffer (R101). -/
  | setBit
  /-- `SET_BYTE_AT_BIT`: write 8 bits at any stream bit offset (R102). -/
  | setByteAtBit
  /-- `CRC_TABLE`: read one table entry (R123). -/
  | crcTable
  /-- `CRC_BYTE`: one update step of the running value (R124). -/
  | crcByte
  /-- `CRC_COMPUTE`: the CRC of a byte range of the buffer (R125). -/
  | crcCompute
  /-- `SYNC_FIND`: find the next syncword (R146). -/
  | syncFind
  /-- `LEN_DECODE`: decode a frame's length (R147). -/
  | lenDecode
  /-- `FRAME_PATCH`: patch one frame in place (R148). -/
  | framePatch
  /-- `RUN`: the whole-buffer pass (R149). -/
  | run
  deriving DecidableEq, Repr

end Sys2Proof
end

