-- ==== Sys2Proof/Machine/State.lean ====
section
/-! DEFINITION. The state of the EAC3-LC engine (spec/10_state.md R24 to R45), the two agents' moves
(R5, R42), the reasons a step stops, and the state after reset (R44). -/

namespace Sys2Proof.Machine

/-- Why the machine stops with a fault. It has no constructor: the block has no fault mechanism
(spec/60_exceptions.md R180) and no step of it raises one (safe). -/
inductive Fault where
  deriving DecidableEq, Repr

/-- Why a step is refused. -/
inductive Refusal where
  /-- Raised by an arm of `exec` whose command has no meaning yet; no arm raises it (safe). -/
  | notModelled (mnemonic : String)
  /-- Raised by a host register transaction outside the interface (spec/20_memory.md R53, U5): of
  `width` bits at offset `off`. The specification itself has the model refuse it (safe). -/
  | registerAccess (width off : Nat)
  deriving DecidableEq, Repr

/-- The phase of the engine (R40). -/
inductive Phase where
  | idle
  | exec
  | runLoop
  deriving DecidableEq, Repr

/-- The outcome codes of `STATUS.OUTCOME` that can be produced (spec/60_exceptions.md R182); the
reserved codes `0x6` to `0xF` never are. -/
inductive OutcomeCode where
  | ok
  | noSync
  | truncated
  | resyncExhausted
  | notFound
  | illegalCmd
  deriving DecidableEq, Repr

/-- A host transaction (spec/20_memory.md R52, R53). A register access names its width in bits and
its byte offset, so that the accesses outside the interface can be written down and refused. -/
inductive Transaction where
  /-- A register read, `R(off)` when `width` is 32. -/
  | regRead (width off : Nat)
  /-- A register write, `W(off, v)` when `width` is 32. -/
  | regWrite (width off : Nat) (v : Word)
  /-- A buffer byte read, `RB(a)`. -/
  | bufRead (a : Nat)
  /-- A buffer byte write, `WB(a, v)`, which stores `v[7:0]`. -/
  | bufWrite (a : Nat) (v : Word)
  deriving DecidableEq, Repr

/-- One move of the total order of spec/20_memory.md R63. -/
inductive Turn where
  /-- The engine takes a step, if it has one (R42). -/
  | engine
  /-- The host performs a transaction. -/
  | host (t : Transaction)
  /-- The host polls `STATUS` until it reads `BUSY = 0` (spec/30_encoding.md R77). -/
  | wait
  /-- The platform asserts reset (spec/70_reset_and_hazards.md R200). -/
  | reset
  /-- The platform powers the block on (R201). -/
  | powerOn
  deriving DecidableEq, Repr

/-- The buffer memory `BUF` (R39). `cells` lists the bytes written since power-on, addresses
strictly rising; an address it does not list holds its power-on byte of the power-on numbered `draw`. -/
structure Memory where
  cells : List Host.Cell
  draw : Nat
  deriving DecidableEq, Repr

/-- The complete state (R45), with the capacity the model takes as an argument (R6) and the model's
own `agenda` and `reply`, which stand for the host and the platform. -/
structure State where
  /-- `BUF_CAP` (R6), what `CAP` reads (R36). -/
  cap : Nat
  /-- `LEN` (R28). -/
  len : Word
  /-- `ARG_A` (R29). -/
  argA : Word
  /-- `ARG_B` (R30). -/
  argB : Word
  /-- `ARG_C` (R31). -/
  argC : Word
  /-- `RESULT` (R32). -/
  result : Word
  /-- `FRAME_COUNT` (R34). -/
  frameCount : Word
  /-- `TRIM` (R35). -/
  trim : Word
  /-- `CURSOR` (R33). -/
  cursor : Word
  /-- `STATUS.BUSY` (R26). -/
  busy : Bool
  /-- `STATUS.DONE` (R26). -/
  done : Bool
  /-- `STATUS.OUTCOME` (R26, R182). -/
  outcome : OutcomeCode
  /-- `STATUS.LAST_OP` (R26). -/
  lastOp : BitVec 8
  /-- `STATUS.CMD_OVERRUN` (R26, R186). -/
  cmdOverrun : Bool
  /-- `STATUS.BUF_CONFLICT` (R26, R187). -/
  bufConflict : Bool
  /-- `phase` (R40). -/
  phase : Phase
  /-- The latched command word `CW` (R40). -/
  cw : Word
  /-- The latched operand `A` (R40). -/
  a : Word
  /-- The latched operand `B` (R40). -/
  b : Word
  /-- The latched operand `C` (R40). -/
  c : Word
  /-- The latched length `Lc` (R40). -/
  lc : Word
  /-- `BUF` (R39). -/
  buf : Memory
  /-- The MODEL's own: the moves still to come, in the order of R63; once it is empty, the engine
  alone moves. -/
  agenda : List Turn
  /-- The MODEL's own: the value the host's latest read returned; `none` before its first read. -/
  reply : Option Word
  deriving DecidableEq, Repr

/-- The state after power-on reset: R44, and `BUF` with nothing written (R201). -/
def State.reset : State where
  cap := Config.bufCap
  len := 0#32
  argA := 0#32
  argB := 0#32
  argC := 0#32
  result := 0#32
  frameCount := 0#32
  trim := 0#32
  cursor := 0#32
  busy := false
  done := false
  outcome := .ok
  lastOp := 0#8
  cmdOverrun := false
  bufConflict := false
  phase := .idle
  cw := 0#32
  a := 0#32
  b := 0#32
  c := 0#32
  lc := 0#32
  buf := { cells := [], draw := 0 }
  agenda := []
  reply := none

end Sys2Proof.Machine
end

