-- ==== Sys2Proof/Machine/Operands.lean ====
section
/-! DEFINITION. Operand assembly from the latched registers (spec/30_encoding.md R73): every operand
is unsigned, nothing is sign-extended, scaled or shifted. -/

namespace Sys2Proof.Machine

/-- The latched length `Lc` as a number of bytes. -/
abbrev State.opLc (s : State) : Nat := s.lc.toNat

/-- A stream bit offset: `A`, all 32 bits. -/
abbrev State.opBitOffset (s : State) : Nat := s.a.toNat

/-- A byte index: `A`, all 32 bits. -/
abbrev State.opByteIndex (s : State) : Nat := s.a.toNat

/-- An end index (exclusive): `B`, all 32 bits. -/
abbrev State.opEndIndex (s : State) : Nat := s.b.toNat

/-- A search window: `B`, all 32 bits; 0 means no limit. -/
abbrev State.opWindow (s : State) : Nat := s.b.toNat

/-- A bit value: `B[0]`. -/
abbrev State.opBitValue (s : State) : BitVec 1 := s.b.extractLsb' 0 1

/-- A byte value or table index: `B[7:0]`. -/
abbrev State.opByteValue (s : State) : Byte := s.b.extractLsb' 0 8

/-- A CRC value: `C[15:0]`. -/
abbrev State.opCrc (s : State) : Crc := s.c.extractLsb' 0 16

end Sys2Proof.Machine
end

