-- ==== Sys2Proof/WellFormed.lean ====
section
/-! DEFINITION. What is well formed: a command (always: it has no operand field), a command word
(spec/30_encoding.md R71) and a host register transaction (spec/20_memory.md R53). -/

namespace Sys2Proof

/-- Every command is well formed: format `CMD32` has no operand field (R70). -/
def Instr.wellFormed : Instr → Bool
  | .getBit => true
  | .setBit => true
  | .setByteAtBit => true
  | .crcTable => true
  | .crcByte => true
  | .crcCompute => true
  | .syncFind => true
  | .lenDecode => true
  | .framePatch => true
  | .run => true

/-- The reserved bits `RSV`, bits 31:8 of a command word, are zero (R70). -/
def reservedBitsZero (w : Word) : Bool := w.extractLsb' 8 24 == 0#24

/-- `OP`, bits 7:0 of a command word, is one of the ten values of R71. -/
def opcodeAssigned (w : Word) : Bool :=
  [0x01#8, 0x02#8, 0x03#8, 0x10#8, 0x11#8, 0x12#8, 0x20#8, 0x21#8, 0x22#8, 0x23#8].contains
    (w.extractLsb' 0 8)

/-- A command word is legal: `RSV = 0` and `OP` is listed (R71). -/
def legalCommandWord (w : Word) : Bool := reservedBitsZero w && opcodeAssigned w

/-- A host register transaction of `width` bits at byte offset `off` is inside the interface: 32 bits
wide, at a multiple of 4, at most `0x3C` (R53). -/
def regAccessWellFormed (width off : Nat) : Bool :=
  decide (width = 32) && decide (off % 4 = 0) && decide (off ≤ 0x3C)

end Sys2Proof
end

