-- ==== Sys2Proof/Decode.lean ====
section
/-! DEFINITION. Command decoding and encoding (spec/30_encoding.md R70, R71, R74, R76). A command is
one 32-bit word written whole to `CMD`, so the decoder reads a word and no byte order is involved (R57). -/

namespace Sys2Proof

/-- Why a word is no command: the two grounds of R74. -/
inductive DecodeError where
  /-- `RSV`, bits 31:8, is not zero. -/
  | reservedBits
  /-- `OP`, bits 7:0, is not in the table of R71. -/
  | unassignedOpcode
  deriving DecidableEq, Repr

/-- The opcode map of R71: `OP` and the command it names. -/
def opcodeMap : List (BitVec 8 × Instr) :=
  [(0x01#8, .getBit), (0x02#8, .setBit), (0x03#8, .setByteAtBit),
   (0x10#8, .crcTable), (0x11#8, .crcByte), (0x12#8, .crcCompute),
   (0x20#8, .syncFind), (0x21#8, .lenDecode), (0x22#8, .framePatch), (0x23#8, .run)]

/-- `decode` of R76, the ILLEGAL words rejected by name (R74). -/
def decode (w : Word) : Except DecodeError Instr :=
  if w.extractLsb' 8 24 ≠ 0#24 then .error .reservedBits
  else match opcodeMap.lookup (w.extractLsb' 0 8) with
    | some i => .ok i
    | none => .error .unassignedOpcode

/-- The command word of each command, the column "command word" of R71. -/
def encode : Instr → Word
  | .getBit => 0x00000001#32
  | .setBit => 0x00000002#32
  | .setByteAtBit => 0x00000003#32
  | .crcTable => 0x00000010#32
  | .crcByte => 0x00000011#32
  | .crcCompute => 0x00000012#32
  | .syncFind => 0x00000020#32
  | .lenDecode => 0x00000021#32
  | .framePatch => 0x00000022#32
  | .run => 0x00000023#32

/-- The 32-bit command word whose low `nbits` bits are those of `w`, every bit above them 0. -/
def tableWord (nbits w : Nat) : Word := BitVec.ofNat 32 (w % 2 ^ nbits)

/-- The command the decoder reads from an opcode-table row's `nbits` bits `w`; none where it refuses,
and none for a row wider than the one command format (R76). -/
def decodeTableWord (nbits w : Nat) : Option Instr :=
  if nbits ≤ 32 then (decode (tableWord nbits w)).toOption else none

end Sys2Proof
end

