-- ==== Sys2Proof/Machine/Ops.lean ====
section
/-! DEFINITION. The named operations shared by every meaning: the buffer's bytes and bit fields
(spec/10_state.md R39, spec/20_memory.md R54, R55), a command's acceptance (R41), its completion
(spec/60_exceptions.md R181, which takes the place of an exception: R180), reset and power-on
(spec/70_reset_and_hazards.md R200, R201). -/

namespace Sys2Proof.Machine

/-- The byte listed for address `a`, if any. -/
def lookupCell : List Host.Cell → Nat → Option Byte
  | [], _ => none
  | (k, v) :: rest, a => if k = a then some v else lookupCell rest a

/-- The list with address `a` listed as holding `v`, addresses kept rising. -/
def insertCell : List Host.Cell → Nat → Byte → List Host.Cell
  | [], a, v => [(a, v)]
  | (k, w) :: rest, a, v =>
    if a < k then (a, v) :: (k, w) :: rest
    else if a = k then (a, v) :: rest
    else (k, w) :: insertCell rest a v

/-- The listed addresses are strictly rising and at least `lo`. -/
def risingFrom : Nat → List Host.Cell → Bool
  | _, [] => true
  | lo, (k, _) :: rest => decide (lo ≤ k) && risingFrom (k + 1) rest

/-- The canonical form of a memory: addresses strictly rising. -/
def Memory.wf (m : Memory) : Bool := risingFrom 0 m.cells

/-- Every listed address lies below `cap`. -/
def Memory.within (m : Memory) (cap : Nat) : Bool := m.cells.all fun cell => decide (cell.1 < cap)

/-- What an address that nothing has written since power-on reads as: a free value (R201, U1). -/
def Memory.unlisted (m : Memory) (a : Nat) : Byte := Config.powerOnByte m.draw a

/-- `BUF[a]` (spec/00_scope.md R12). -/
def Memory.read (m : Memory) (a : Nat) : Byte := (lookupCell m.cells a).getD (m.unlisted a)

/-- `BUF[a] <- v` (R12). -/
def Memory.write (m : Memory) (a : Nat) (v : Byte) : Memory :=
  { m with cells := insertCell m.cells a v }

/-- `rd0(a)`: `BUF[a]` if `a < Lc`, else 0 (R12). -/
def Memory.rd0 (m : Memory) (lc a : Nat) : Byte := if a < lc then m.read a else 0#8

/-- The `n` bytes `BUF[a], BUF[a+1], ..., BUF[a+n-1]`. -/
def Memory.bytes (m : Memory) (a : Nat) : Nat → List Byte
  | 0 => []
  | n + 1 => m.read a :: m.bytes (a + 1) n

/-- `RESULT <- v` (R32). -/
def State.setResult (s : State) (v : Word) : State := { s with result := v }

/-- `complete(code)` (R181). -/
def State.complete (s : State) (code : OutcomeCode) : State :=
  { s with outcome := code, busy := false, done := true, phase := .idle }

/-- The acceptance of the command word `v`, the block of R41. -/
def State.accept (s : State) (v : Word) : State :=
  { s with
    cw := v
    a := s.argA
    b := s.argB
    c := s.argC
    lc := s.len
    busy := true
    done := false
    outcome := .ok
    lastOp := v.extractLsb' 0 8
    frameCount := if v = encode .run then 0#32 else s.frameCount
    trim := if v = encode .run then 0#32 else s.trim
    cursor := if v = encode .run then 0#32 else s.cursor
    phase := .exec }

/-- The reset event (R200): every register and internal state as R44 gives it, `BUF` unchanged. What
is not the block's (its capacity, the moves to come, the host's last reply) stays. -/
def State.resetEvent (s : State) : State :=
  { State.reset with cap := s.cap, buf := s.buf, agenda := s.agenda, reply := s.reply }

/-- Power-on (R201): a reset, and every byte of `BUF` drawn anew. -/
def State.powerOnEvent (s : State) : State :=
  { s.resetEvent with buf := { cells := [], draw := s.buf.draw + 1 } }

end Sys2Proof.Machine
end

