-- ==== Sys2Proof/Machine/CrcEngine.lean ====
section
/-! DEFINITION. The CRC-16 polynomial engine (spec/41_crc_engine.md): its table, its update, its range
function and the commands `CRC_TABLE`, `CRC_BYTE` and `CRC_COMPUTE`. -/

namespace Sys2Proof.Machine

/-- One shift-and-XOR step of the division by `POLY` (R120). -/
def crcShift (c : Crc) : Crc :=
  if c &&& 0x8000#16 ≠ 0#16 then (c <<< 1) ^^^ Config.poly else c <<< 1

/-- `n` shift-and-XOR steps. -/
def crcShifts : Nat → Crc → Crc
  | 0, c => c
  | n + 1, c => crcShifts n (crcShift c)

/-- `TABLE[v]` (R120): eight steps from `v << 8`. -/
def crcTableEntry (v : Byte) : Crc := crcShifts 8 (v.setWidth 16 <<< 8)

/-- `crc_step(c, b)` (R121). -/
def crcStep (c : Crc) (b : Byte) : Crc :=
  crcTableEntry (b ^^^ (c >>> 8).setWidth 8) ^^^ (c <<< 8)

/-- `Compute(bytes, init)` (R122). -/
def crcOf : List Byte → Crc → Crc
  | [], init => init
  | b :: rest, init => crcOf rest (crcStep init b)

/-- `bitwise(S, c)`, the MSB-first bitwise division without a table (R127). -/
def crcBitwise : List Byte → Crc → Crc
  | [], c => c
  | b :: rest, c => crcBitwise rest (crcShifts 8 (c ^^^ (b.setWidth 16 <<< 8)))

/-- `Compute(BUF[first], ..., BUF[last - 1] ; init)`, and `init` when the range is empty or inverted
(R125, R145). -/
def Memory.crcRange (m : Memory) (first last : Nat) (init : Crc) : Crc :=
  if first < last then crcOf (m.bytes first (last - first)) init else init

/-- `CRC_TABLE` (R123): reads neither `BUF` nor `Lc`. -/
def execCrcTable (s : State) : Host.Outcome State Fault Refusal :=
  .next ((s.setResult ((crcTableEntry s.opByteValue).setWidth 32)).complete .ok)

/-- `CRC_BYTE` (R124): reads neither `BUF` nor `Lc`. -/
def execCrcByte (s : State) : Host.Outcome State Fault Refusal :=
  .next ((s.setResult ((crcStep s.opCrc s.opByteValue).setWidth 32)).complete .ok)

/-- `CRC_COMPUTE` (R125): the range is cut at `Lc`. -/
def execCrcCompute (s : State) : Host.Outcome State Fault Refusal :=
  let r := s.buf.crcRange s.opByteIndex (min s.opEndIndex s.opLc) s.opCrc
  .next ((s.setResult (r.setWidth 32)).complete .ok)

end Sys2Proof.Machine
end

