-- ==== Sys2Proof/Machine/FieldMutator.lean ====
section
/-! DEFINITION. The field mutator (spec/40_bit_accessor.md): its three primitives over `BUF[0, Lc)`
and the commands `GET_BIT`, `SET_BIT` and `SET_BYTE_AT_BIT`. Stream bit offsets count from the most
significant bit of byte 0 (spec/20_memory.md R54). -/

namespace Sys2Proof.Machine

/-- `get_bit(o)` (R100). -/
def Memory.getBit (m : Memory) (lc o : Nat) : BitVec 1 :=
  if o / 8 ≥ lc then 0#1 else (m.read (o / 8) >>> (7 - o % 8)).setWidth 1

/-- `set_bit(v, o)` (R101). -/
def Memory.setBit (m : Memory) (lc : Nat) (v : BitVec 1) (o : Nat) : Memory :=
  let mask : Byte := 1#8 <<< (7 - o % 8)
  if o / 8 < lc then
    if v = 1#1 then m.write (o / 8) (m.read (o / 8) ||| mask)
    else m.write (o / 8) (m.read (o / 8) &&& ~~~mask)
  else m

/-- `set_byte_at_bit(v, o)` (R102): the straddling write is skipped whole unless both its bytes are
in range (R106). -/
def Memory.setByteAtBit (m : Memory) (lc : Nat) (v : Byte) (o : Nat) : Memory :=
  let n := o / 8
  let sh := o % 8
  if sh = 0 then
    if n < lc then m.write n v else m
  else if n + 1 < lc then
    (m.write n ((m.read n &&& ~~~(0xFF#8 >>> sh)) ||| (v >>> sh))).write (n + 1)
      ((m.read (n + 1) &&& (0xFF#8 >>> sh)) ||| (v <<< (8 - sh)))
  else m

/-- `field(o, n)`, the `n`-bit number whose most significant bit is at stream offset `o`
(spec/20_memory.md R55). -/
def Memory.field (m : Memory) (lc o : Nat) : Nat → Nat
  | 0 => 0
  | n + 1 => 2 * m.field lc o n + (m.getBit lc (o + n)).toNat

/-- `GET_BIT` (R100). -/
def execGetBit (s : State) : Host.Outcome State Fault Refusal :=
  .next ((s.setResult ((s.buf.getBit s.opLc s.opBitOffset).setWidth 32)).complete .ok)

/-- `SET_BIT` (R101): `RESULT` unchanged. -/
def execSetBit (s : State) : Host.Outcome State Fault Refusal :=
  .next (State.complete { s with buf := s.buf.setBit s.opLc s.opBitValue s.opBitOffset } .ok)

/-- `SET_BYTE_AT_BIT` (R102): `RESULT` unchanged. -/
def execSetByteAtBit (s : State) : Host.Outcome State Fault Refusal :=
  .next (State.complete { s with buf := s.buf.setByteAtBit s.opLc s.opByteValue s.opBitOffset } .ok)

end Sys2Proof.Machine
end

