-- ==== Sys2Proof/Machine/FrameScanner.lean ====
section
/-! DEFINITION. The frame scanner (spec/42_frame_scanner.md): the marker search, the length decoder,
the frame patch, and the commands `SYNC_FIND`, `LEN_DECODE`, `FRAME_PATCH` and `RUN`. Offsets are
unbounded numbers (spec/00_scope.md R11, spec/30_encoding.md R73). -/

namespace Sys2Proof.Machine

/-- `marker(a)` (R140). -/
def Memory.marker (m : Memory) (lc a : Nat) : Bool :=
  decide (a + 1 < lc) && (m.read a == Config.syncHi) && (m.read (a + 1) == Config.syncLo)

/-- The first marker among the `n` positions from `a` on. -/
def Memory.findWithin (m : Memory) (lc : Nat) : Nat → Nat → Option Nat
  | 0, _ => none
  | n + 1, a => if m.marker lc a then some a else m.findWithin lc n (a + 1)

/-- `find(a, lim)` (R141): the smallest marker position `p` with `a <= p` and `p + 1 < lim`. -/
def Memory.find (m : Memory) (lc a lim : Nat) : Option Nat := m.findWithin lc (lim - 1 - a) a

/-- `frmsiz(s)` (R142): the low 3 bits of byte `start + 2`, then the 8 bits of byte `start + 3`. -/
def Memory.frmsiz (m : Memory) (lc start : Nat) : BitVec Config.frmsizWidth :=
  (m.rd0 lc (start + 2)).extractLsb' 0 3 ++ m.rd0 lc (start + 3)

/-- `frame_length(s)` (R143). -/
def Memory.frameLength (m : Memory) (lc start : Nat) : Nat := 2 * (m.frmsiz lc start).toNat + 2

/-- `mutate(s)` (R144). -/
def Memory.mutate (m : Memory) (lc start : Nat) : Memory :=
  let bb := 8 * start
  let flagged :=
    if m.getBit lc (bb + Config.flagBit) = 0#1 then m.setBit lc 1#1 (bb + Config.flagBit) else m
  (flagged.setByteAtBit lc Config.chmapHi (bb + Config.chmapHiBit)).setByteAtBit lc
    Config.chmapLo (bb + Config.chmapLoBit)

/-- The value `checksum(s, fl)` returns (R145): the CRC of `[s+2, e-2)`, `e = s + fl`. -/
def Memory.frameCrc (m : Memory) (start fl : Nat) : Crc :=
  m.crcRange (start + 2) (start + fl - 2) Config.crcInitFrame

/-- The bytes `checksum(s, fl)` writes (R145), most significant first (spec/20_memory.md R56). -/
def Memory.writeChecksum (m : Memory) (start fl : Nat) : Memory :=
  let crc := m.frameCrc start fl
  (m.write (start + fl - 2) (crc.extractLsb' 8 8)).write (start + fl - 1) (crc.extractLsb' 0 8)

/-- `mutate(s)`, then `checksum(s, fl)`: the buffer after a frame's patch (R148, R151). -/
def Memory.patchFrame (m : Memory) (lc start fl : Nat) : Memory :=
  (m.mutate lc start).writeChecksum start fl

/-- The checksum that a frame's patch writes and returns (R148). -/
def Memory.patchCrc (m : Memory) (lc start fl : Nat) : Crc := (m.mutate lc start).frameCrc start fl

/-- `SYNC_FIND` (R146). -/
def execSyncFind (s : State) : Host.Outcome State Fault Refusal :=
  let lim := if s.opWindow = 0 then s.opLc else min (s.opByteIndex + s.opWindow) s.opLc
  match s.buf.find s.opLc s.opByteIndex lim with
  | none => .next ((s.setResult 0xFFFFFFFF#32).complete .notFound)
  | some p => .next ((s.setResult (BitVec.ofNat 32 p)).complete .ok)

/-- `LEN_DECODE` (R147). -/
def execLenDecode (s : State) : Host.Outcome State Fault Refusal :=
  .next ((s.setResult (BitVec.ofNat 32 (s.buf.frameLength s.opLc s.opByteIndex))).complete .ok)

/-- `FRAME_PATCH` (R148): a truncated frame is left untouched. -/
def execFramePatch (s : State) : Host.Outcome State Fault Refusal :=
  let start := s.opByteIndex
  let fl := s.buf.frameLength s.opLc start
  if start + fl > s.opLc then
    .next ((s.setResult (0#16 ++ BitVec.ofNat 16 fl)).complete .truncated)
  else
    .next ((State.setResult { s with buf := s.buf.patchFrame s.opLc start fl }
      (s.buf.patchCrc s.opLc start fl ++ BitVec.ofNat 16 fl)).complete .ok)

/-- The seek step of `RUN` (R150). -/
def runSeek (s : State) : State :=
  match s.buf.find s.opLc 0 s.opLc with
  | none => (s.setResult 0#32).complete .noSync
  | some k => { s with trim := BitVec.ofNat 32 k, phase := .runLoop }

/-- The trimmed length `L = Lc - TRIM` (spec/10_state.md R40). -/
abbrev State.runLength (s : State) : Nat := s.opLc - s.trim.toNat

/-- The physical index of the scan cursor, `k + i` (R151). -/
abbrev State.runPosition (s : State) : Nat := s.trim.toNat + s.cursor.toNat

/-- One loop iteration of `RUN` (R151). -/
def runIteration (s : State) : State :=
  let i := s.cursor.toNat
  let at' := s.runPosition
  if s.runLength - i < Config.minRemain then (s.setResult s.frameCount).complete .ok
  else if s.buf.marker s.opLc at' = false then
    match s.buf.find s.opLc (at' + 1) (min (at' + 1 + Config.resyncWindow) s.opLc) with
    | none => (s.setResult s.frameCount).complete .resyncExhausted
    | some p => { s with cursor := BitVec.ofNat 32 (p - s.trim.toNat) }
  else
    let fl := s.buf.frameLength s.opLc at'
    if i + fl > s.runLength then (s.setResult s.frameCount).complete .truncated
    else
      { s with
        buf := s.buf.patchFrame s.opLc at' fl
        frameCount := s.frameCount + 1#32
        cursor := BitVec.ofNat 32 (i + fl) }

/-- One engine step of `RUN` (R149): the seek step, and in `RUN_LOOP` one iteration. -/
def execRun (s : State) : Host.Outcome State Fault Refusal :=
  match s.phase with
  | .runLoop => .next (runIteration s)
  | .exec => .next (runSeek s)
  | .idle => .next (runSeek s)

end Sys2Proof.Machine
end

