-- ==== Sys2Proof/Machine/Dispatch.lean ====
section
/-! DEFINITION. One engine step of each command (spec/10_state.md R42), one arm per command. -/

namespace Sys2Proof.Machine

def exec (i : Instr) (s : State) : Host.Outcome State Fault Refusal :=
  match i with
  | .getBit => Sys2Proof.Machine.execGetBit s
  | .setBit => Sys2Proof.Machine.execSetBit s
  | .setByteAtBit => Sys2Proof.Machine.execSetByteAtBit s
  | .crcTable => Sys2Proof.Machine.execCrcTable s
  | .crcByte => Sys2Proof.Machine.execCrcByte s
  | .crcCompute => Sys2Proof.Machine.execCrcCompute s
  | .syncFind => Sys2Proof.Machine.execSyncFind s
  | .lenDecode => Sys2Proof.Machine.execLenDecode s
  | .framePatch => Sys2Proof.Machine.execFramePatch s
  | .run => Sys2Proof.Machine.execRun s

end Sys2Proof.Machine
end

