-- ==== Sys2Proof/Machine/Flags.lean ====
section
/-! DEFINITION. The `STATUS` register: its fields as one word, its sticky bits and the host's
write-1-to-clear (spec/10_state.md R26, spec/60_exceptions.md R182, R186, R187). -/

namespace Sys2Proof.Machine

/-- The 4-bit code of an outcome (R182). -/
def OutcomeCode.code : OutcomeCode → BitVec 4
  | .ok => 0x0#4
  | .noSync => 0x1#4
  | .truncated => 0x2#4
  | .resyncExhausted => 0x3#4
  | .notFound => 0x4#4
  | .illegalCmd => 0x5#4

/-- What a read of `STATUS` returns: the fields of R26 at their places, bits 3:2 and 31:18 zero. -/
def State.statusWord (s : State) : Word :=
  0#14 ++ BitVec.ofBool s.bufConflict ++ BitVec.ofBool s.cmdOverrun ++ s.lastOp ++
    s.outcome.code ++ 0#2 ++ BitVec.ofBool s.done ++ BitVec.ofBool s.busy

/-- A host write of `v` to `STATUS`: bits 16 and 17 clear the sticky bit they name, every other bit
is ignored (R26). -/
def State.writeStatus (s : State) (v : Word) : State :=
  { s with
    cmdOverrun := s.cmdOverrun && !v.getLsbD 16
    bufConflict := s.bufConflict && !v.getLsbD 17 }

/-- `STATUS.CMD_OVERRUN <- 1` (R186). -/
def State.setCmdOverrun (s : State) : State := { s with cmdOverrun := true }

/-- `STATUS.BUF_CONFLICT <- 1` (R187). -/
def State.setBufConflict (s : State) : State := { s with bufConflict := true }

end Sys2Proof.Machine
end

