-- ==== Sys2Proof/Machine/HostPort.lean ====
section
/-! DEFINITION. The host's transactions (spec/20_memory.md R52, R53) with the effects of the register
rules R25 to R37 of spec/10_state.md and the acceptance rule R41. -/

namespace Sys2Proof.Machine

/-- What a read of the register at `off` returns (R24 to R37); it has no side effect (R60). -/
def State.readReg (s : State) (off : Nat) : Word :=
  if off = 0x00 then Config.idValue
  else if off = 0x04 then 0#32
  else if off = 0x08 then s.statusWord
  else if off = 0x0C then s.len
  else if off = 0x10 then s.argA
  else if off = 0x14 then s.argB
  else if off = 0x18 then s.argC
  else if off = 0x1C then s.result
  else if off = 0x20 then s.frameCount
  else if off = 0x24 then s.trim
  else if off = 0x28 then s.cursor
  else if off = 0x2C then BitVec.ofNat 32 s.cap
  else 0#32

/-- A write of `v` to `CMD` (R41): accepted when idle, dropped with `CMD_OVERRUN` when busy. -/
def State.writeCmd (s : State) (v : Word) : State :=
  if s.busy then s.setCmdOverrun else s.accept v

/-- A write of `v` to `LEN` (R28): `min(v, BUF_CAP)` is stored. -/
def State.writeLen (s : State) (v : Word) : State :=
  { s with len := BitVec.ofNat 32 (min v.toNat s.cap) }

/-- A write of `v` to the register at `off` (R24 to R37): read-only and reserved registers ignore it. -/
def State.writeReg (s : State) (off : Nat) (v : Word) : State :=
  if off = 0x04 then s.writeCmd v
  else if off = 0x08 then s.writeStatus v
  else if off = 0x0C then s.writeLen v
  else if off = 0x10 then { s with argA := v }
  else if off = 0x14 then { s with argB := v }
  else if off = 0x18 then { s with argC := v }
  else s

/-- What a host read of buffer byte `a` returns (R52). -/
def State.hostByte (s : State) (a : Nat) : Byte :=
  if s.busy then 0x00#8 else if a ≥ s.cap then 0x00#8 else s.buf.read a

/-- A host read of buffer byte `a` (R52). -/
def State.hostReadByte (s : State) (a : Nat) : State :=
  let answered := { s with reply := some ((s.hostByte a).setWidth 32) }
  if s.busy then answered.setBufConflict else answered

/-- A host write of `v[7:0]` to buffer byte `a` (R52). -/
def State.hostWriteByte (s : State) (a : Nat) (v : Word) : State :=
  if s.busy then s.setBufConflict
  else if a ≥ s.cap then s
  else { s with buf := s.buf.write a (v.extractLsb' 0 8) }

/-- A host transaction. A register transaction outside the interface is refused (R53). -/
def hostTransaction (t : Transaction) (s : State) : Host.Outcome State Fault Refusal :=
  match t with
  | .regRead width off =>
    if regAccessWellFormed width off then .next { s with reply := some (s.readReg off) }
    else .refused (.registerAccess width off)
  | .regWrite width off v =>
    if regAccessWellFormed width off then .next (s.writeReg off v)
    else .refused (.registerAccess width off)
  | .bufRead a => .next (s.hostReadByte a)
  | .bufWrite a v => .next (s.hostWriteByte a v)

/-- One poll of `wait` (spec/30_encoding.md R77): a read of `STATUS`. While it shows `BUSY = 1` the
poll is repeated, after an engine step (engine steps are taken fairly: spec/10_state.md R43). -/
def State.pollStatus (s : State) : State :=
  { s with
    reply := some s.statusWord
    agenda := if s.statusWord.getLsbD 0 then .engine :: .wait :: s.agenda else s.agenda }

end Sys2Proof.Machine
end

