-- ==== Sys2Proof/Machine/Engine.lean ====
section
/-! DEFINITION. The engine step (spec/10_state.md R42) and the moves of the total order in which engine
steps, host transactions and resets happen (spec/20_memory.md R63). -/

namespace Sys2Proof.Machine

/-- The engine step (R42). In `IDLE` the engine has no step and the state stays. -/
def engineStep (s : State) : Host.Outcome State Fault Refusal :=
  match s.phase with
  | .idle => .next s
  | .exec =>
    match decode s.cw with
    | .ok i => exec i s
    | .error _ => .next (s.complete .illegalCmd)
  | .runLoop => exec .run s

/-- One move at the state `s`, from whose agenda the move has been taken. -/
def takeTurn (turn : Turn) (s : State) : Host.Outcome State Fault Refusal :=
  match turn with
  | .engine => engineStep s
  | .host t => hostTransaction t s
  | .wait => .next s.pollStatus
  | .reset => .next s.resetEvent
  | .powerOn => .next s.powerOnEvent

/-- The next move of the agenda; with none left, an engine step. -/
def nextMove (s : State) : Host.Outcome State Fault Refusal :=
  match s.agenda with
  | [] => engineStep s
  | turn :: rest => takeTurn turn { s with agenda := rest }

/-- The agenda with the next move the engine's. -/
def engineFirst : List Turn → List Turn
  | [] => []
  | turn :: rest => .engine :: turn :: rest

/-- The command word accepted (R41), and the engine's the next move. -/
def State.acceptNext (s : State) (v : Word) : State :=
  { s.accept v with agenda := engineFirst s.agenda }

end Sys2Proof.Machine
end

