-- ==== Sys2Proof/Machine/Step.lean ====
section
/-! DEFINITION. The step of the machine: the next move of the total order of spec/20_memory.md R63. -/

namespace Sys2Proof.Machine

/-- One step: the next move of the agenda; with none left, an engine step (spec/10_state.md R42). -/
def step (s : State) : Host.Outcome State Fault Refusal := nextMove s

/-- The command word of an opcode-table row accepted as a write to `CMD` accepts it (R41), so that the
very next step is its engine step. The block fetches no instruction (R22). -/
def State.withFetchWord (s : State) (nbits w : Nat) : State := s.acceptNext (tableWord nbits w)

end Sys2Proof.Machine
end

