-- ==== Sys2Proof/Machine/HostNotation.lean ====
section
/-! DEFINITION. The host notation of spec/30_encoding.md R77 and R78: a program line and the moves it
stands for. -/

namespace Sys2Proof.Machine

/-- The named registers (spec/10_state.md R24). -/
inductive RegName where
  | id
  | cmd
  | status
  | len
  | argA
  | argB
  | argC
  | result
  | frameCount
  | trim
  | cursor
  | cap
  deriving DecidableEq, Repr

/-- `off(REG)`, the byte offset of a register (R24). -/
def RegName.offset : RegName → Nat
  | .id => 0x00
  | .cmd => 0x04
  | .status => 0x08
  | .len => 0x0C
  | .argA => 0x10
  | .argB => 0x14
  | .argC => 0x18
  | .result => 0x1C
  | .frameCount => 0x20
  | .trim => 0x24
  | .cursor => 0x28
  | .cap => 0x2C

/-- A line of a host program: the forms of R77, then the pseudo-instructions of R78. -/
inductive HostLine where
  /-- `wr REG, v`. -/
  | wr (reg : RegName) (v : Word)
  /-- `rd REG`. -/
  | rd (reg : RegName)
  /-- `wb a, b0, b1, ...`. -/
  | wb (a : Nat) (bytes : List Byte)
  /-- `rb a`. -/
  | rb (a : Nat)
  /-- `cmd MNEM`. -/
  | cmd (i : Instr)
  /-- `wait`. -/
  | wait
  /-- `; text`. -/
  | comment (text : String)
  /-- `op MNEM a, b, c`, an operand left empty being `none`. -/
  | op (i : Instr) (a b c : Option Word)
  /-- `clr`. -/
  | clr
  /-- `load a, b0, b1, ...`. -/
  | load (a : Nat) (bytes : List Byte)
  deriving DecidableEq, Repr

/-- `W(off(REG), v)`. -/
def regWriteTurn (reg : RegName) (v : Word) : Turn := .host (.regWrite 32 reg.offset v)

/-- `R(off(REG))`. -/
def regReadTurn (reg : RegName) : Turn := .host (.regRead 32 reg.offset)

/-- `WB(a, b0) WB(a+1, b1) ...`. -/
def byteWriteTurns : Nat → List Byte → List Turn
  | _, [] => []
  | a, v :: rest => .host (.bufWrite a (v.setWidth 32)) :: byteWriteTurns (a + 1) rest

/-- `W(0x04, word(MNEM))`, `word` from R71. -/
def commandTurn (i : Instr) : Turn := regWriteTurn .cmd (encode i)

/-- The write of an operand register, none for an operand left empty (R78). -/
def operandTurns (reg : RegName) : Option Word → List Turn
  | none => []
  | some v => [regWriteTurn reg v]

/-- The moves a line stands for (R77, R78). DESIGN CHOICE (notes/assumptions/19.md): where `load`'s
`a + n` does not fit a 32-bit register write, the write carries its low 32 bits. -/
def HostLine.expand : HostLine → List Turn
  | .wr reg v => [regWriteTurn reg v]
  | .rd reg => [regReadTurn reg]
  | .wb a bytes => byteWriteTurns a bytes
  | .rb a => [.host (.bufRead a)]
  | .cmd i => [commandTurn i]
  | .wait => [.wait]
  | .comment _ => []
  | .op i a b c =>
    operandTurns .argA a ++ operandTurns .argB b ++ operandTurns .argC c ++ [commandTurn i, .wait]
  | .clr => [regWriteTurn .status 0x00030000#32]
  | .load a bytes =>
    byteWriteTurns a bytes ++ [regWriteTurn .len (BitVec.ofNat 32 (a + bytes.length))]

/-- The moves of a host program, line after line. -/
def expandProgram (lines : List HostLine) : List Turn := lines.flatMap HostLine.expand

end Sys2Proof.Machine
end

