-- ==== Sys2Proof/Safety.lean ====
section
/-! DEFINITION. What claims call a good state: the machine's invariant, the moves that stay inside the
interface, the host that waits for its commands, and when two states show the engine the same. -/

namespace Sys2Proof.Safety

open Sys2Proof.Machine

/-- The invariant of the machine: every state that a run from reset reaches has it. -/
structure Inv (s : State) : Prop where
  /-- `BUF` is in canonical form. -/
  canonical : s.buf.wf = true
  /-- `BUF` holds `BUF_CAP` bytes (spec/20_memory.md R50). -/
  within : s.buf.within s.cap = true
  /-- `1 <= BUF_CAP <= 2^29` (spec/00_scope.md R6). -/
  capLegal : 1 ≤ s.cap ∧ s.cap ≤ 2 ^ 29
  /-- `LEN <= BUF_CAP` always holds (spec/10_state.md R28). -/
  lenLegal : s.len.toNat ≤ s.cap
  /-- So the latched length is at most `BUF_CAP` too (R41). -/
  lcLegal : s.opLc ≤ s.cap
  /-- `BUSY` is 1 from acceptance to completion (R26). -/
  busyPhase : s.busy = true ↔ s.phase ≠ .idle
  /-- `DONE` and `OUTCOME` are 0 while `BUSY` is 1 (R26). -/
  busyClear : s.busy = true → s.done = false ∧ s.outcome = .ok
  /-- `BUSY = 0` with `DONE = 0` shows only where nothing has been accepted since the last reset
  (spec/70_reset_and_hazards.md R200, spec/10_state.md R44). -/
  untouched : s.busy = false → s.done = false →
    s.outcome = .ok ∧ s.cw = 0#32 ∧ s.a = 0#32 ∧ s.b = 0#32 ∧ s.c = 0#32 ∧ s.lc = 0#32 ∧
      s.result = 0#32 ∧ s.frameCount = 0#32 ∧ s.trim = 0#32 ∧ s.cursor = 0#32
  /-- `LAST_OP` is bits 7:0 of the last accepted word (R26). -/
  lastOp : s.lastOp = s.cw.extractLsb' 0 8
  /-- Only `RUN` has a loop (R42). -/
  loopIsRun : s.phase = .runLoop → s.cw = encode .run
  /-- `RUN` starts with its registers at 0 (R41). -/
  runFresh : s.phase = .exec → s.cw = encode .run →
    s.frameCount = 0#32 ∧ s.trim = 0#32 ∧ s.cursor = 0#32
  /-- The output of a pass starts inside the buffer, and its cursor stays in it (R33, R35). -/
  cursorInBuffer : s.trim.toNat + s.cursor.toNat ≤ s.cap
  /-- `CURSOR <= L` throughout a pass (spec/42_frame_scanner.md R152), which starts at a marker. -/
  cursorInRun : s.phase = .runLoop →
    s.trim.toNat + 1 < s.opLc ∧ s.trim.toNat + s.cursor.toNat ≤ s.opLc
  /-- Every patched frame is at least 2 bytes (R34). -/
  countBound : 2 * s.frameCount.toNat ≤ s.cursor.toNat

/-- A move that stays inside the register interface (spec/20_memory.md R53). -/
def insideInterface : Turn → Bool
  | .host (.regRead width off) => regAccessWellFormed width off
  | .host (.regWrite width off _) => regAccessWellFormed width off
  | .host (.bufRead _) => true
  | .host (.bufWrite _ _) => true
  | .engine => true
  | .wait => true
  | .reset => true
  | .powerOn => true

/-- The next move stays inside the register interface; with no move left, it is the engine's. -/
def nextInside (s : State) : Bool :=
  match s.agenda with
  | [] => true
  | turn :: _ => insideInterface turn

/-- Every move still to come stays inside the register interface. -/
def agendaInside (s : State) : Bool := s.agenda.all insideInterface

/-- A move that writes `CMD`. -/
def writesCmd : Turn → Bool
  | .host (.regWrite _ off _) => decide (off = 0x04)
  | .host (.regRead _ _) => false
  | .host (.bufRead _) => false
  | .host (.bufWrite _ _) => false
  | .engine => false
  | .wait => false
  | .reset => false
  | .powerOn => false

/-- The moves start with a `wait`. -/
def startsWithWait : List Turn → Bool
  | .wait :: _ => true
  | _ => false

/-- The moves of a host that waits: right after every write to `CMD` stands a `wait`
(spec/30_encoding.md R79). -/
def everyCmdWaits : List Turn → Bool
  | [] => true
  | turn :: rest => (!writesCmd turn || startsWithWait rest) && everyCmdWaits rest

/-- The moves to come when a command is in progress: a poll, perhaps after an engine step. -/
def pollsNext : List Turn → Bool
  | .wait :: _ => true
  | .engine :: .wait :: _ => true
  | _ => false

/-- A machine whose host waits for every command, with no protocol violation recorded (R79). -/
structure Orderly (s : State) : Prop where
  waits : everyCmdWaits s.agenda = true
  polls : s.busy = true → pollsNext s.agenda = true
  busyPhase : s.busy = true ↔ s.phase ≠ .idle
  noOverrun : s.cmdOverrun = false
  noConflict : s.bufConflict = false

/-- A line of a host program that writes `CMD` only through `op`, whose command is followed by a
`wait` (spec/30_encoding.md R78, R79). -/
def lineWaits : HostLine → Bool
  | .cmd _ => false
  | .wr reg _ => decide (reg ≠ .cmd)
  | .rd _ => true
  | .wb _ _ => true
  | .rb _ => true
  | .wait => true
  | .comment _ => true
  | .op _ _ _ _ => true
  | .clr => true
  | .load _ _ => true

/-- Two states that differ at most in what the host may change while a command is in progress: `LEN`,
`ARG_A`, `ARG_B`, `ARG_C` and the sticky bits (spec/70_reset_and_hazards.md R208), and in the
model's own agenda and reply. -/
def sameEngine (s t : State) : Prop :=
  t = { s with
    len := t.len, argA := t.argA, argB := t.argB, argC := t.argC
    cmdOverrun := t.cmdOverrun, bufConflict := t.bufConflict, agenda := t.agenda, reply := t.reply }

/-- What a frame's patch leaves, byte by byte: the buffer was `m` and is `m'`, and `crc` is the checksum,
over the mutated bytes (spec/42_frame_scanner.md R144, R145, R148). -/
def PatchedBytes (m m' : Memory) (lc start fl : Nat) (crc : Crc) : Prop :=
  crc = (m.mutate lc start).crcRange (start + 2) (start + fl - 2) 0x0000#16 ∧
  ∀ x, m'.read x =
    if x = start + fl - 2 then crc.extractLsb' 8 8
    else if x = start + fl - 1 then crc.extractLsb' 0 8
    else if start + 7 ≤ x ∧ x < start + 10 then (m.mutate lc start).read x
    else m.read x

/-- The post-conditions of a frame's patch: the buffer was `m` and is `m'`, the frame starts at
`start` and is `fl` bytes long, the length is `lc` (spec/42_frame_scanner.md R155). -/
structure FramePatched (m m' : Memory) (lc start fl : Nat) : Prop where
  flag : m'.getBit lc (8 * start + 61) = 1#1
  channelMap : m'.field lc (8 * start + 62) 16 = 0x6800
  checksum : m'.read (start + fl - 2) ++ m'.read (start + fl - 1) =
    m'.crcRange (start + 2) (start + fl - 2) 0x0000#16
  frame : ∀ x, ¬(start + 7 ≤ x ∧ x < start + 10) → ¬(start + fl - 2 ≤ x ∧ x < start + fl) →
    m'.read x = m.read x

/-- The state `t` is `s` seen through the trim: the same pass over a buffer whose first byte is byte
`k` of `s`'s (spec/42_frame_scanner.md R154). -/
structure TrimmedView (k : Nat) (s t : State) : Prop where
  trim : s.trim.toNat = k
  trimZero : t.trim = 0#32
  length : t.opLc = s.opLc - k
  inBuffer : k ≤ s.opLc
  bytes : ∀ x, x < t.opLc → t.buf.read x = s.buf.read (k + x)
  cursor : t.cursor = s.cursor
  frameCount : t.frameCount = s.frameCount
  phase : t.phase = s.phase
  outcome : t.outcome = s.outcome
  result : t.result = s.result

end Sys2Proof.Safety
end

