-- ==== Sys2Proof/Certificates/Slice0/Obligations.lean ====
section
/-! DEFINITION. The statements about the EAC3-LC engine, from the numbered rules of spec/. -/

open Sys2Proof Sys2Proof.Machine Sys2Proof.Safety

/-! ### Encoding and dispatch -/

/-- R71, R76: a word decodes to a command exactly when it is that command's word. -/
def Obligations.DecodeAndEncodeAgree : Prop :=
  ∀ (w : Word) (i : Instr),
    (decode w = .ok i ↔ w = encode i) ∧ (decodeTableWord 32 w.toNat = some i ↔ w = encode i)

/-- R74: every other word is rejected by name, and the legal words are those of R71. -/
def Obligations.DecodeRejectsByName : Prop :=
  ∀ w : Word,
    (decode w = .error .reservedBits ↔ w.extractLsb' 8 24 ≠ 0#24) ∧
    (decode w = .error .unassignedOpcode ↔
      w.extractLsb' 8 24 = 0#24 ∧ ∀ i : Instr, w.extractLsb' 0 8 ≠ (encode i).extractLsb' 0 8) ∧
    (legalCommandWord w = true ↔ ∃ i : Instr, w = encode i)

/-- R71, R74: words written out from the opcode map and from the illegal words of
spec/95_test_vectors.md section 2.5, and what they decode to. -/
def Obligations.WrittenOutWordsDecode : Prop :=
  decode 0b00000000000000000000000000000001#32 = .ok .getBit ∧
  decode 0b00000000000000000000000000000011#32 = .ok .setByteAtBit ∧
  decode 0b00000000000000000000000000010010#32 = .ok .crcCompute ∧
  decode 0b00000000000000000000000000100000#32 = .ok .syncFind ∧
  decode 0b00000000000000000000000000100011#32 = .ok .run ∧
  decode 0x00000000#32 = .error .unassignedOpcode ∧
  decode 0x00000004#32 = .error .unassignedOpcode ∧
  decode 0x00000123#32 = .error .reservedBits ∧
  decode 0x80000001#32 = .error .reservedBits

/-- R42: in `EXEC`, the step runs the decoded command, whether the engine is the only agent left or
its move stands next on the agenda. -/
def Obligations.StepRunsDecodedCommand : Prop :=
  ∀ (s : State) (i : Instr), s.phase = .exec → decode s.cw = .ok i →
    (s.agenda = [] → step s = exec i s) ∧
    (∀ rest, s.agenda = .engine :: rest → step s = exec i { s with agenda := rest })

/-- R42: the engine has a step exactly when its phase is not `IDLE`; in `RUN_LOOP` it is one of `RUN`,
and for an illegal word it is `complete(ILLEGAL_CMD)`. -/
def Obligations.EngineStepInEachPhase : Prop :=
  ∀ s : State, s.agenda = [] →
    (s.phase = .idle → step s = .next s) ∧
    (s.phase = .runLoop → step s = exec .run s) ∧
    (s.phase = .exec → legalCommandWord s.cw = false →
      step s = .next { s with outcome := .illegalCmd, busy := false, done := true, phase := .idle })

/-- The word placed by `withFetchWord` is accepted as R41 says, and the very next step runs it. -/
def Obligations.FetchedWordRunsNext : Prop :=
  ∀ (s : State) (w : Nat) (i : Instr), decode (BitVec.ofNat 32 w) = .ok i →
    step (s.withFetchWord 32 w) = exec i (s.accept (BitVec.ofNat 32 w))

/-! ### The host's transactions -/

/-- R41: what a write to `CMD` does. -/
def Obligations.CommandWriteAcceptedOrDropped : Prop :=
  ∀ (s : State) (v : Word),
    (s.busy = true →
      hostTransaction (.regWrite 32 0x04 v) s = .next { s with cmdOverrun := true }) ∧
    (s.busy = false → ∃ t, hostTransaction (.regWrite 32 0x04 v) s = .next t ∧
      t = { s with
        cw := v, a := s.argA, b := s.argB, c := s.argC, lc := s.len
        busy := true, done := false, outcome := .ok, lastOp := v.extractLsb' 0 8
        frameCount := if v = 0x00000023#32 then 0#32 else s.frameCount
        trim := if v = 0x00000023#32 then 0#32 else s.trim
        cursor := if v = 0x00000023#32 then 0#32 else s.cursor
        phase := .exec } ∧
      t.statusWord.getLsbD 0 = true ∧ t.statusWord.getLsbD 1 = false)

/-- R24, R25, R27, R36, R37, R60: what each of the 16 registers reads, with no side effect. -/
def Obligations.RegisterReadReturnsItsContent : Prop :=
  ∀ (s : State) (off : Nat), off % 4 = 0 → off ≤ 0x3C →
    hostTransaction (.regRead 32 off) s = .next { s with
      reply := some (([0x4C433136#32, 0#32, s.statusWord, s.len, s.argA, s.argB, s.argC, s.result,
        s.frameCount, s.trim, s.cursor, BitVec.ofNat 32 s.cap, 0#32, 0#32, 0#32, 0#32] :
          List Word).getD (off / 4) 0#32) }

/-- R24, R28 to R31, R37: what a write to each register but `CMD` and `STATUS` does. -/
def Obligations.RegisterWriteEffects : Prop :=
  ∀ (s : State) (v : Word),
    (∀ off ∈ [0x00, 0x1C, 0x20, 0x24, 0x28, 0x2C, 0x30, 0x34, 0x38, 0x3C],
      hostTransaction (.regWrite 32 off v) s = .next s) ∧
    hostTransaction (.regWrite 32 0x10 v) s = .next { s with argA := v } ∧
    hostTransaction (.regWrite 32 0x14 v) s = .next { s with argB := v } ∧
    hostTransaction (.regWrite 32 0x18 v) s = .next { s with argC := v } ∧
    ∃ l : Word, hostTransaction (.regWrite 32 0x0C v) s = .next { s with len := l } ∧
      l.toNat = min v.toNat s.cap

/-- R26, R182: `STATUS` holds its fields at their places and zeros elsewhere, and a write to it clears
the sticky bits it names and nothing else. -/
def Obligations.StatusLayoutAndWriteOneToClear : Prop :=
  OutcomeCode.ok.code = 0x0#4 ∧ OutcomeCode.noSync.code = 0x1#4 ∧
  OutcomeCode.truncated.code = 0x2#4 ∧ OutcomeCode.resyncExhausted.code = 0x3#4 ∧
  OutcomeCode.notFound.code = 0x4#4 ∧ OutcomeCode.illegalCmd.code = 0x5#4 ∧
  ∀ s : State,
    s.statusWord.getLsbD 0 = s.busy ∧ s.statusWord.getLsbD 1 = s.done ∧
    s.statusWord.extractLsb' 2 2 = 0#2 ∧ s.statusWord.extractLsb' 4 4 = s.outcome.code ∧
    s.statusWord.extractLsb' 8 8 = s.lastOp ∧ s.statusWord.getLsbD 16 = s.cmdOverrun ∧
    s.statusWord.getLsbD 17 = s.bufConflict ∧ s.statusWord.extractLsb' 18 14 = 0#14 ∧
    ∀ v : Word, hostTransaction (.regWrite 32 0x08 v) s = .next { s with
      cmdOverrun := if v.getLsbD 16 then false else s.cmdOverrun
      bufConflict := if v.getLsbD 17 then false else s.bufConflict }

/-- R53: exactly the register transactions that are not aligned 32-bit ones at `0x00` to `0x3C` are
refused. -/
def Obligations.RegisterAccessRefusedOutsideInterface : Prop :=
  ∀ (s : State) (width off : Nat) (v : Word),
    (¬(width = 32 ∧ off % 4 = 0 ∧ off ≤ 0x3C) →
      hostTransaction (.regRead width off) s = .refused (.registerAccess width off) ∧
      hostTransaction (.regWrite width off v) s = .refused (.registerAccess width off)) ∧
    (width = 32 → off % 4 = 0 → off ≤ 0x3C →
      (∃ t, hostTransaction (.regRead width off) s = .next t) ∧
      ∃ t, hostTransaction (.regWrite width off v) s = .next t)

/-- A host buffer transaction in the three cases of spec/20_memory.md section 1, and the bytes it
leaves. That a read's byte stands zero-extended in `reply` is the model's choice
(notes/assumptions/5.md), and so is an address without a bound (notes/assumptions/13.md). -/
def Obligations.HostBufferTransaction : Prop :=
  ∀ (s : State) (a : Nat) (v : Word),
    (s.busy = true →
      hostTransaction (.bufRead a) s = .next { s with reply := some 0#32, bufConflict := true } ∧
      hostTransaction (.bufWrite a v) s = .next { s with bufConflict := true }) ∧
    (s.busy = false → s.cap ≤ a →
      hostTransaction (.bufRead a) s = .next { s with reply := some 0#32 } ∧
      hostTransaction (.bufWrite a v) s = .next s) ∧
    (s.busy = false → a < s.cap →
      hostTransaction (.bufRead a) s =
        .next { s with reply := some ((s.buf.read a).setWidth 32) } ∧
      ∃ m : Memory, hostTransaction (.bufWrite a v) s = .next { s with buf := m } ∧
        ∀ x, m.read x = if x = a then v.extractLsb' 0 8 else s.buf.read x)

/-- R63, R52: in the order of the agenda, a host read after a host write of a byte returns the byte
written. -/
def Obligations.HostReadAfterWriteSeesByte : Prop :=
  ∀ (s : State) (a : Nat) (v : Word) (rest : List Turn), s.busy = false → a < s.cap →
    s.agenda = .host (.bufWrite a v) :: .host (.bufRead a) :: rest →
    ∃ t : State, Sys2Proof.core.run 2 s = .next t ∧
      t.reply = some ((v.extractLsb' 0 8).setWidth 32) ∧ t.agenda = rest

/-- R77: one poll of `wait`. It reads `STATUS`, and ends exactly when the word read has bit 0 zero. -/
def Obligations.WaitPollsUntilNotBusy : Prop :=
  ∀ (s : State) (rest : List Turn), s.agenda = .wait :: rest →
    (s.busy = false → step s = .next { s with reply := some s.statusWord, agenda := rest }) ∧
    (s.busy = true →
      step s = .next { s with reply := some s.statusWord, agenda := .engine :: .wait :: rest })

/-- R78: `load` stores its bytes at `a`, `a + 1`, ... and sets `LEN` to the end of them; `clr` clears
both sticky bits. -/
def Obligations.LoadStoresBytesAndLength : Prop :=
  (∀ (s : State) (a : Nat) (bytes : List Byte), s.busy = false → a + bytes.length ≤ s.cap →
    s.cap ≤ 2 ^ 29 → s.agenda = (HostLine.load a bytes).expand →
    ∃ (t : State) (l : Word) (m : Memory), Sys2Proof.core.run (bytes.length + 1) s = .next t ∧
      t = { s with len := l, buf := m, agenda := [] } ∧ l.toNat = a + bytes.length ∧
      ∀ x, m.read x =
        if a ≤ x ∧ x < a + bytes.length then bytes.getD (x - a) 0#8 else s.buf.read x) ∧
  ∀ s : State, s.agenda = HostLine.clr.expand →
    Sys2Proof.core.run 1 s = .next { s with cmdOverrun := false, bufConflict := false, agenda := [] }

/-! ### Reset, power-on and the invariant -/

/-- R44, R200: what the reset event leaves, from any state and between any two moves. -/
def Obligations.ResetEventLeavesResetValues : Prop :=
  ∀ (s : State) (rest : List Turn), s.agenda = .reset :: rest →
    step s = .next {
      cap := s.cap, len := 0#32, argA := 0#32, argB := 0#32, argC := 0#32, result := 0#32
      frameCount := 0#32, trim := 0#32, cursor := 0#32
      busy := false, done := false, outcome := .ok, lastOp := 0#8
      cmdOverrun := false, bufConflict := false
      phase := .idle, cw := 0#32, a := 0#32, b := 0#32, c := 0#32, lc := 0#32
      buf := s.buf, agenda := rest, reply := s.reply }

/-- R201: power-on is a reset, and every byte of `BUF` is a free value of the new power-on. The free
value and its indexing by power-on are the model's (notes/assumptions/1.md). -/
def Obligations.PowerOnDrawsEveryByte : Prop :=
  ∀ (s : State) (rest : List Turn), s.agenda = .powerOn :: rest →
    ∃ m : Memory,
      step s = .next { State.reset with cap := s.cap, buf := m, agenda := rest, reply := s.reply } ∧
      m.wf = true ∧ ∀ x, m.read x = Config.powerOnByte (s.buf.draw + 1) x

/-- R44, R202: the reset state meets the invariant, its `STATUS` reads `0x00000000` and it is idle. -/
def Obligations.ResetStateMeetsInvariant : Prop :=
  Inv State.reset ∧ State.reset.statusWord = 0#32 ∧ State.reset.phase = .idle

/-- Every step keeps the invariant of Safety.lean (R6, R26, R28, R33 to R35, R41, R42, R50, R152). -/
def Obligations.StepKeepsMachineInvariant : Prop :=
  ∀ s t : State, Inv s → step s = .next t → Inv t

/-- R180, R53: a step answers a next state when the next move stays inside the interface, and is refused
by name when it leaves it; a step of a host whose every move stays inside leaves such a host. The order
of moves is the model's (notes/assumptions/4.md), and so is what a refusal ends (8.md). -/
def Obligations.StepNeverStopsInsideInterface : Prop :=
  ∀ s : State,
    (nextInside s = true → ∃ t, step s = .next t) ∧
    (nextInside s = false → ∃ width off, step s = .refused (.registerAccess width off)) ∧
    ∀ t, agendaInside s = true → step s = .next t → agendaInside t = true

/-- The canonical form makes equal buffers equal data: two buffers in it that list the same byte at
every address, of the same power-on, are equal. The form is the model's (notes/assumptions/2.md). -/
def Obligations.CanonicalBufferIsUnique : Prop :=
  ∀ m m' : Memory, m.wf = true → m'.wf = true → m.draw = m'.draw →
    (∀ x, lookupCell m.cells x = lookupCell m'.cells x) → m = m'

/-! ### The field mutator -/

/-- R100: `GET_BIT`. -/
def Obligations.GetBitReadsAddressedBit : Prop :=
  encode .getBit = 0x00000001#32 ∧
  ∀ s : State, exec .getBit s = .next { s with
    result :=
      if s.a.toNat / 8 < s.lc.toNat then
        (BitVec.ofBool ((s.buf.read (s.a.toNat / 8)).getMsbD (s.a.toNat % 8))).setWidth 32
      else 0#32
    outcome := .ok, busy := false, done := true, phase := .idle }

/-- R101: `SET_BIT`. Bit `j` of byte `x`, counted from the most significant, is stream bit `8x + j`. -/
def Obligations.SetBitChangesOneBit : Prop :=
  encode .setBit = 0x00000002#32 ∧
  ∀ s : State, ∃ m : Memory,
    exec .setBit s = .next { s with
      buf := m, outcome := .ok, busy := false, done := true, phase := .idle } ∧
    ∀ x j, j < 8 → (m.read x).getMsbD j =
      if 8 * x + j = s.a.toNat ∧ x < s.lc.toNat then s.b.getLsbD 0 else (s.buf.read x).getMsbD j

/-- `SET_BYTE_AT_BIT` (spec/40_bit_accessor.md section 1): the write is applied whole or skipped whole.
The rule marks the order of the bits inside the window as its own derivation: "The order of `v`'s bits
inside the window is not stated word for word." -/
def Obligations.SetByteAtBitWritesEightBits : Prop :=
  encode .setByteAtBit = 0x00000003#32 ∧
  ∀ s : State, ∃ m : Memory,
    exec .setByteAtBit s = .next { s with
      buf := m, outcome := .ok, busy := false, done := true, phase := .idle } ∧
    ∀ x j, j < 8 → (m.read x).getMsbD j =
      if (if s.a.toNat % 8 = 0 then s.a.toNat / 8 < s.lc.toNat
          else s.a.toNat / 8 + 1 < s.lc.toNat) ∧
        s.a.toNat ≤ 8 * x + j ∧ 8 * x + j < s.a.toNat + 8
      then s.b.getLsbD (7 - (8 * x + j - s.a.toNat))
      else (s.buf.read x).getMsbD j

/-- R105: after an applied `set_byte_at_bit(v, o)`, `field(o, 8) = v`; after a `set_bit(v, o)` in
range, `get_bit(o) = v`. -/
def Obligations.FieldReadsWhatWasWritten : Prop :=
  ∀ (m : Memory) (lc o : Nat),
    (∀ v : Byte, (if o % 8 = 0 then o / 8 < lc else o / 8 + 1 < lc) →
      (m.setByteAtBit lc v o).field lc o 8 = v.toNat) ∧
    ∀ v : BitVec 1, o / 8 < lc → (m.setBit lc v o).getBit lc o = v

/-- R105: an applied `set_byte_at_bit(v, o)` leaves the buffer of eight `set_bit` calls; in the
unaligned tail case it changes nothing, while those calls write the bits inside the buffer. -/
def Obligations.SetByteAtBitIsEightSetBits : Prop :=
  ∀ (m : Memory) (lc o : Nat) (v : Byte) (m' : Memory),
    m' = (List.range 8).foldl
      (fun acc j => acc.setBit lc (BitVec.ofBool (v.getLsbD (7 - j))) (o + j)) m →
    ((if o % 8 = 0 then o / 8 < lc else o / 8 + 1 < lc) →
      ∀ x, (m.setByteAtBit lc v o).read x = m'.read x) ∧
    (o % 8 ≠ 0 → o / 8 + 1 = lc → m.setByteAtBit lc v o = m ∧
      ∀ j, j < 8 - o % 8 → m'.getBit lc (o + j) = BitVec.ofBool (v.getLsbD (7 - j)))

/-- R105: each writing primitive is idempotent. -/
def Obligations.PrimitivesAreIdempotent : Prop :=
  ∀ (m : Memory) (lc o : Nat),
    (∀ v : BitVec 1, (m.setBit lc v o).setBit lc v o = m.setBit lc v o) ∧
    ∀ v : Byte, (m.setByteAtBit lc v o).setByteAtBit lc v o = m.setByteAtBit lc v o

/-! ### The CRC-16 engine -/

/-- `CRC_TABLE` (spec/41_crc_engine.md sections 1 and 2), the entry by the table's loop. The loop's start
value `v << 8` is general knowledge by the specification's own mark (notes/assumptions/15.md). -/
def Obligations.CrcTableReadsTheRom : Prop :=
  encode .crcTable = 0x00000010#32 ∧
  ∀ s : State, exec .crcTable s = .next { s with
    result := ((fun c : Crc => if c.msb then (c <<< 1) ^^^ 0x8005#16 else c <<< 1)^[8]
      (s.b.extractLsb' 0 8 ++ 0#8)).setWidth 32
    outcome := .ok, busy := false, done := true, phase := .idle }

/-- R121, R124: `CRC_BYTE`. -/
def Obligations.CrcByteAppliesOneUpdate : Prop :=
  encode .crcByte = 0x00000011#32 ∧
  ∀ s : State, exec .crcByte s = .next { s with
    result := 0#16 ++ (crcTableEntry (s.b.extractLsb' 0 8 ^^^ s.c.extractLsb' 8 8) ^^^
      (s.c.extractLsb' 0 8 ++ 0#8))
    outcome := .ok, busy := false, done := true, phase := .idle }

/-- R122, R125: `CRC_COMPUTE`, over the bytes from `A` up to `min(B, Lc)`. -/
def Obligations.CrcComputeFoldsTheRange : Prop :=
  encode .crcCompute = 0x00000012#32 ∧
  ∀ s : State, exec .crcCompute s = .next { s with
    result := 0#16 ++
      (((List.range' s.a.toNat (min s.b.toNat s.lc.toNat - s.a.toNat)).map s.buf.read).foldl
        crcStep (s.c.extractLsb' 0 16))
    outcome := .ok, busy := false, done := true, phase := .idle }

/-- R126: `Compute` of a concatenation resumes from the first part's value, and so does the CRC of a
range cut in two. -/
def Obligations.CrcResumesAcrossACut : Prop :=
  (∀ (s1 s2 : List Byte) (c : Crc), crcOf (s1 ++ s2) c = crcOf s2 (crcOf s1 c)) ∧
  ∀ (s t1 t2 t : State) (mid : Word), s.a.toNat ≤ mid.toNat → mid.toNat ≤ s.b.toNat →
    s.b.toNat ≤ s.lc.toNat →
    exec .crcCompute { s with b := mid } = .next t1 →
    exec .crcCompute { s with a := mid, c := t1.result } = .next t2 →
    exec .crcCompute s = .next t → t2.result = t.result

/-- R128: a sequence with its own checksum appended has checksum 0, and so has a patched frame of at
least 4 bytes. -/
def Obligations.AppendedChecksumZeroesRemainder : Prop :=
  (∀ (bytes : List Byte) (c : Crc), c = crcOf bytes 0#16 →
    crcOf (bytes ++ [c.extractLsb' 8 8, c.extractLsb' 0 8]) 0#16 = 0#16) ∧
  ∀ (m : Memory) (lc start fl : Nat), 4 ≤ fl → start + fl ≤ lc →
    (m.patchFrame lc start fl).crcRange (start + 2) (start + fl) 0#16 = 0#16

/-- R127: the table-driven `Compute` is the MSB-first bitwise division. The rule marks the equivalence
as general knowledge, not the source's. -/
def Obligations.TableDrivenCrcIsBitwiseDivision : Prop :=
  ∀ (bytes : List Byte) (c : Crc), crcOf bytes c = crcBitwise bytes c

/-! ### The frame scanner -/

/-- R141, R146: `SYNC_FIND` answers the smallest marker of its window, or `NOT_FOUND`. -/
def Obligations.SyncFindAnswersFirstMarker : Prop :=
  encode .syncFind = 0x00000020#32 ∧
  ∀ (s : State) (lim : Nat),
    lim = (if s.b = 0#32 then s.lc.toNat else min (s.a.toNat + s.b.toNat) s.lc.toNat) →
    (∀ p, s.a.toNat ≤ p → p + 1 < lim → s.buf.read p = 0x0B#8 → s.buf.read (p + 1) = 0x77#8 →
      (∀ q, s.a.toNat ≤ q → q < p → ¬(s.buf.read q = 0x0B#8 ∧ s.buf.read (q + 1) = 0x77#8)) →
      exec .syncFind s = .next { s with
        result := BitVec.ofNat 32 p
        outcome := .ok, busy := false, done := true, phase := .idle }) ∧
    ((∀ q, s.a.toNat ≤ q → q + 1 < lim →
        ¬(s.buf.read q = 0x0B#8 ∧ s.buf.read (q + 1) = 0x77#8)) →
      exec .syncFind s = .next { s with
        result := 0xFFFFFFFF#32
        outcome := .notFound, busy := false, done := true, phase := .idle })

/-- R142: the frame-size field is 11 bits, by the rule's formula, and is the bit field at stream
offset `8s + 21` when both its bytes are in the buffer. -/
def Obligations.FrameSizeIsElevenBitField : Prop :=
  ∀ (m : Memory) (lc start : Nat),
    (m.frmsiz lc start).toNat =
      (((m.rd0 lc (start + 2)).toNat &&& 0x07) <<< 8 ||| (m.rd0 lc (start + 3)).toNat) ∧
    (m.frmsiz lc start).toNat ≤ 2047 ∧
    (start + 3 < lc → (m.frmsiz lc start).toNat = m.field lc (8 * start + 21) 11)

/-- R143, R147: `LEN_DECODE`, the length from the two size bytes, read as 0 at or past `Lc`. -/
def Obligations.LenDecodeComputesFrameLength : Prop :=
  encode .lenDecode = 0x00000021#32 ∧
  ∀ s : State, ∃ fl : Nat,
    fl = 2 * ((if s.a.toNat + 2 < s.lc.toNat then (s.buf.read (s.a.toNat + 2)).toNat % 8 else 0) * 256
      + (if s.a.toNat + 3 < s.lc.toNat then (s.buf.read (s.a.toNat + 3)).toNat else 0)) + 2 ∧
    fl % 2 = 0 ∧ 2 ≤ fl ∧ fl ≤ 4096 ∧
    exec .lenDecode s = .next { s with
      result := BitVec.ofNat 32 fl
      outcome := .ok, busy := false, done := true, phase := .idle }

/-- R144, R157: the bytes that `mutate` leaves, also where the buffer ends within the three. -/
def Obligations.MutationBytesUpToTheTail : Prop :=
  (∀ (m : Memory) (lc start x : Nat), (m.mutate lc start).read x =
    if x = start + 7 ∧ start + 9 ≤ lc then (m.read x &&& 0xF8#8) ||| 0x05#8
    else if x = start + 7 ∧ lc = start + 8 then m.read x ||| 0x04#8
    else if x = start + 8 ∧ start + 10 ≤ lc then 0xA0#8
    else if x = start + 8 ∧ lc = start + 9 then 0xA0#8 ||| (m.read x &&& 0x03#8)
    else if x = start + 9 ∧ start + 10 ≤ lc then m.read x &&& 0x03#8
    else m.read x) ∧
  ∀ (m : Memory) (lc start : Nat), start + m.frameLength lc start ≤ lc → lc ≤ start + 9 →
    m.frameLength lc start ≤ 8

/-- R148: `FRAME_PATCH`. A frame that ends past `Lc` is left untouched; another is mutated and its
checksum written, and no byte outside `[s+7, s+10)` and `[e-2, e)` changes. -/
def Obligations.FramePatchPatchesOneFrame : Prop :=
  encode .framePatch = 0x00000022#32 ∧
  ∀ (s : State) (fl : Nat), fl = s.buf.frameLength s.lc.toNat s.a.toNat →
    (s.a.toNat + fl > s.lc.toNat →
      exec .framePatch s = .next { s with
        result := 0x0000#16 ++ BitVec.ofNat 16 fl
        outcome := .truncated, busy := false, done := true, phase := .idle }) ∧
    (s.a.toNat + fl ≤ s.lc.toNat → ∃ (m : Memory) (crc : Crc),
      exec .framePatch s = .next { s with
        buf := m, result := crc ++ BitVec.ofNat 16 fl
        outcome := .ok, busy := false, done := true, phase := .idle } ∧
      PatchedBytes s.buf m s.lc.toNat s.a.toNat fl crc)

/-- R155: a patched frame of at least 12 bytes has its flag, its channel map, its checksum and its
frame condition, by `FRAME_PATCH` or by an iteration of `RUN`; of a 10-byte frame's mutation bits 61
to 63 remain. -/
def Obligations.PatchedFramePostconditions : Prop :=
  (∀ s t : State, exec .framePatch s = .next t → t.outcome = .ok →
    12 ≤ s.buf.frameLength s.lc.toNat s.a.toNat →
    FramePatched s.buf t.buf s.lc.toNat s.a.toNat (s.buf.frameLength s.lc.toNat s.a.toNat)) ∧
  (∀ s t : State, s.phase = .runLoop → exec .run s = .next t → t.frameCount ≠ s.frameCount →
    12 ≤ s.buf.frameLength s.lc.toNat (s.trim.toNat + s.cursor.toNat) →
    FramePatched s.buf t.buf s.lc.toNat (s.trim.toNat + s.cursor.toNat)
      (s.buf.frameLength s.lc.toNat (s.trim.toNat + s.cursor.toNat))) ∧
  ∀ s t : State, exec .framePatch s = .next t → t.outcome = .ok →
    s.buf.frameLength s.lc.toNat s.a.toNat = 10 →
    t.buf.getBit s.lc.toNat (8 * s.a.toNat + 61) = 1#1 ∧
    t.buf.field s.lc.toNat (8 * s.a.toNat + 62) 2 = 0b01 ∧
    t.buf.read (s.a.toNat + 8) ++ t.buf.read (s.a.toNat + 9) =
      t.buf.crcRange (s.a.toNat + 2) (s.a.toNat + 8) 0#16

/-- R156: the rows of the table of frames shorter than 12 bytes, each with its size field, its checksum
bytes and its mutated bytes, for `FRAME_PATCH` where the buffer holds the three mutated bytes. -/
def Obligations.ShortFramesOverwriteAsTabled : Prop :=
  ∀ (s t : State) (p fl n : Nat), p = s.a.toNat → fl = s.buf.frameLength s.lc.toNat p →
    n = (s.buf.frmsiz s.lc.toNat p).toNat →
    exec .framePatch s = .next t → t.outcome = .ok → p + 10 ≤ s.lc.toNat →
    (fl = 2 → n = 0 ∧ t.result = 0x00000002#32 ∧
      t.buf.read p = 0x00#8 ∧ t.buf.read (p + 1) = 0x00#8) ∧
    (fl = 4 → n = 1 ∧ t.result = 0x00000004#32 ∧
      t.buf.read (p + 2) = 0x00#8 ∧ t.buf.read (p + 3) = 0x00#8 ∧
      t.buf.frameLength s.lc.toNat p = 2) ∧
    (fl = 6 → n = 2 ∧
      t.buf.read (p + 4) ++ t.buf.read (p + 5) = s.buf.crcRange (p + 2) (p + 4) 0#16) ∧
    (fl = 2 ∨ fl = 4 ∨ fl = 6 →
      t.buf.read (p + 7) = (s.buf.read (p + 7) &&& 0xF8#8) ||| 0x05#8 ∧
      t.buf.read (p + 8) = 0xA0#8 ∧ t.buf.read (p + 9) = s.buf.read (p + 9) &&& 0x03#8) ∧
    (fl = 8 → n = 3 ∧
      t.buf.read (p + 6) ++ t.buf.read (p + 7) = s.buf.crcRange (p + 2) (p + 6) 0#16 ∧
      t.buf.read (p + 8) = 0xA0#8 ∧ t.buf.read (p + 9) = s.buf.read (p + 9) &&& 0x03#8 ∧
      t.buf.marker s.lc.toNat (p + 8) = false) ∧
    (fl = 10 → n = 4 ∧
      t.buf.read (p + 7) = (s.buf.read (p + 7) &&& 0xF8#8) ||| 0x05#8 ∧
      t.buf.read (p + 8) ++ t.buf.read (p + 9) = t.buf.crcRange (p + 2) (p + 8) 0#16)

/-- R158: `FRAME_PATCH` twice at the same frame leaves the buffer of the first, except at `fl = 4`,
where the second zeroes the syncword. -/
def Obligations.FramePatchIsIdempotent : Prop :=
  ∀ s t u : State, exec .framePatch s = .next t → exec .framePatch t = .next u →
    (s.buf.frameLength s.lc.toNat s.a.toNat ≠ 4 →
      u.result = t.result ∧ u.outcome = t.outcome ∧ ∀ x, u.buf.read x = t.buf.read x) ∧
    (s.buf.frameLength s.lc.toNat s.a.toNat = 4 → s.a.toNat + 4 ≤ s.lc.toNat →
      u.result = 0x00000002#32 ∧
      u.buf.read s.a.toNat = 0x00#8 ∧ u.buf.read (s.a.toNat + 1) = 0x00#8)

/-- R150: the seek step of `RUN`. -/
def Obligations.RunSeekTrimsToFirstMarker : Prop :=
  encode .run = 0x00000023#32 ∧
  ∀ s : State, s.phase = .exec →
    (∀ k, k + 1 < s.lc.toNat → s.buf.read k = 0x0B#8 → s.buf.read (k + 1) = 0x77#8 →
      (∀ q, q < k → ¬(s.buf.read q = 0x0B#8 ∧ s.buf.read (q + 1) = 0x77#8)) →
      exec .run s = .next { s with trim := BitVec.ofNat 32 k, phase := .runLoop }) ∧
    ((∀ q, q + 1 < s.lc.toNat → ¬(s.buf.read q = 0x0B#8 ∧ s.buf.read (q + 1) = 0x77#8)) →
      exec .run s = .next { s with
        result := 0#32, outcome := .noSync, busy := false, done := true, phase := .idle })

/-- R151: one loop iteration of `RUN`, in the order of its checks. -/
def Obligations.RunIterationInOrderOfChecks : Prop :=
  ∀ (s : State) (k i len p fl : Nat), s.phase = .runLoop → k = s.trim.toNat → i = s.cursor.toNat →
    len = s.lc.toNat - k → p = k + i → fl = s.buf.frameLength s.lc.toNat p →
    (len - i < 5 → exec .run s = .next { s with
      result := s.frameCount, outcome := .ok, busy := false, done := true, phase := .idle }) ∧
    (5 ≤ len - i → ¬(s.buf.read p = 0x0B#8 ∧ s.buf.read (p + 1) = 0x77#8) →
      (∀ q, p + 1 ≤ q → q + 1 < min (p + 1 + 4096) s.lc.toNat →
        s.buf.read q = 0x0B#8 → s.buf.read (q + 1) = 0x77#8 →
        (∀ r, p + 1 ≤ r → r < q → ¬(s.buf.read r = 0x0B#8 ∧ s.buf.read (r + 1) = 0x77#8)) →
        exec .run s = .next { s with cursor := BitVec.ofNat 32 (q - k) }) ∧
      ((∀ q, p + 1 ≤ q → q + 1 < min (p + 1 + 4096) s.lc.toNat →
          ¬(s.buf.read q = 0x0B#8 ∧ s.buf.read (q + 1) = 0x77#8)) →
        exec .run s = .next { s with
          result := s.frameCount
          outcome := .resyncExhausted, busy := false, done := true, phase := .idle })) ∧
    (5 ≤ len - i → s.buf.read p = 0x0B#8 → s.buf.read (p + 1) = 0x77#8 →
      (len < i + fl → exec .run s = .next { s with
        result := s.frameCount
        outcome := .truncated, busy := false, done := true, phase := .idle }) ∧
      (i + fl ≤ len → ∃ (m : Memory) (crc : Crc),
        exec .run s = .next { s with
          buf := m
          frameCount := s.frameCount + 1#32
          cursor := BitVec.ofNat 32 (i + fl) } ∧
        PatchedBytes s.buf m s.lc.toNat p fl crc))

/-- R152, R154: in the loop of `RUN` the cursor only moves forward and stays in the trimmed buffer, it
rises in every iteration that does not complete, and the trimmed bytes keep their values. -/
def Obligations.RunCursorOnlyMovesForward : Prop :=
  ∀ s t : State, s.phase = .runLoop → exec .run s = .next t →
    t.trim = s.trim ∧ s.cursor.toNat ≤ t.cursor.toNat ∧
    (t.phase ≠ .idle → s.cursor.toNat < t.cursor.toNat) ∧
    (t.frameCount ≠ s.frameCount → s.cursor.toNat + 2 ≤ t.cursor.toNat) ∧
    (s.cursor.toNat ≤ s.lc.toNat - s.trim.toNat → t.cursor.toNat ≤ s.lc.toNat - s.trim.toNat) ∧
    ∀ x, x < s.trim.toNat → t.buf.read x = s.buf.read x

/-- R154: a pass over the trimmed buffer in place is the pass over a copy of it moved to index 0: after
any number of engine steps the two show the same bytes, registers, outcome and phase. -/
def Obligations.RunInPlaceIsRunOnTrimmedCopy : Prop :=
  ∀ (k : Nat) (s t : State), s.agenda = [] → t.agenda = [] → s.phase = .exec → t.phase = .exec →
    s.cw = encode .run → t.cw = encode .run → s.buf.find s.lc.toNat 0 s.lc.toNat = some k →
    t.lc.toNat = s.lc.toNat - k →
    (∀ x, x < t.lc.toNat → t.buf.read x = s.buf.read (k + x)) →
    t.cursor = s.cursor → t.frameCount = s.frameCount → t.outcome = s.outcome →
    t.result = s.result →
    ∀ n, ∃ s' t' : State, Sys2Proof.core.run (n + 1) s = .next s' ∧
      Sys2Proof.core.run (n + 1) t = .next t' ∧ TrimmedView k s' t'

/-! ### Whole-machine rules -/

/-- R43, R153, R212: with only the engine moving, every accepted command completes; a command other
than `RUN` takes one step and a `RUN` at most `Lc + 2`. -/
def Obligations.EveryCommandCompletes : Prop :=
  ∀ s : State, s.agenda = [] → s.phase = .exec →
    ∃ (n : Nat) (t : State), n ≤ s.lc.toNat + 2 ∧ (s.cw ≠ encode .run → n = 1) ∧
      Sys2Proof.core.run n s = .next t ∧ t.phase = .idle ∧ t.busy = false ∧ t.done = true

/-- An accepted illegal word completes with `ILLEGAL_CMD` in its first step and changes nothing but
`STATUS` and the latches of acceptance (spec/60_exceptions.md section 1, spec/10_state.md section 5).
The order of the two moves, the engine's once the agenda is empty, is the model's
(notes/assumptions/4.md). -/
def Obligations.IllegalCommandHasNoOtherEffect : Prop :=
  ∀ (s : State) (v : Word), legalCommandWord v = false → s.busy = false →
    s.agenda = [.host (.regWrite 32 0x04 v)] →
    Sys2Proof.core.run 2 s = .next { s with
      cw := v, a := s.argA, b := s.argB, c := s.argC, lc := s.len
      lastOp := v.extractLsb' 0 8, outcome := .illegalCmd
      busy := false, done := true, phase := .idle, agenda := [] }

/-- R72, R182: the outcomes each command can complete with; only `RUN` stays in progress. -/
def Obligations.OutcomesOfEachCommand : Prop :=
  ∀ (i : Instr) (s t : State), exec i s = .next t →
    (t.phase = .idle ∧ t.busy = false ∧ t.done = true ∧ t.outcome ∈ (match i with
      | .getBit => [OutcomeCode.ok]
      | .setBit => [.ok]
      | .setByteAtBit => [.ok]
      | .crcTable => [.ok]
      | .crcByte => [.ok]
      | .crcCompute => [.ok]
      | .syncFind => [.ok, .notFound]
      | .lenDecode => [.ok]
      | .framePatch => [.ok, .truncated]
      | .run => [.ok, .noSync, .truncated, .resyncExhausted])) ∨
    (i = .run ∧ t.phase = .runLoop)

/-- R72, R181: what an engine step leaves unchanged, whatever the command: the capacity, the operand
registers, `LEN`, `LAST_OP`, the sticky bits and the latches; and only `RUN` writes `FRAME_COUNT`,
`TRIM` and `CURSOR`, only the writing commands `BUF`. -/
def Obligations.EngineStepFrame : Prop :=
  ∀ (i : Instr) (s t : State), exec i s = .next t →
    t = { s with
      result := t.result, frameCount := t.frameCount, trim := t.trim, cursor := t.cursor
      busy := t.busy, done := t.done, outcome := t.outcome, phase := t.phase, buf := t.buf } ∧
    (i ≠ .run → t.frameCount = s.frameCount ∧ t.trim = s.trim ∧ t.cursor = s.cursor) ∧
    (i ∈ [Instr.setBit, .setByteAtBit] → t.result = s.result) ∧
    (i ∈ [Instr.getBit, .crcTable, .crcByte, .crcCompute, .syncFind, .lenDecode] → t.buf = s.buf)

/-- R67, R186, R187, R208: a host transaction while a command is in progress changes only `LEN`, the
operand registers and the sticky bits, and the engine's next step does not depend on them. -/
def Obligations.HostCannotDisturbCommandInProgress : Prop :=
  (∀ (tx : Transaction) (s t : State), s.busy = true → hostTransaction tx s = .next t →
    sameEngine s t) ∧
  ∀ s t u : State, sameEngine s t → engineStep s = .next u →
    ∃ v, engineStep t = .next v ∧ sameEngine u v ∧
      v.len = t.len ∧ v.argA = t.argA ∧ v.argB = t.argB ∧ v.argC = t.argC ∧
      v.cmdOverrun = t.cmdOverrun ∧ v.bufConflict = t.bufConflict

/-- R50, R104: the engine neither reads nor writes a byte at or past `Lc`: bytes there do not change,
and what they hold changes nothing a command leaves below `Lc` or in a register. -/
def Obligations.EngineIgnoresBytesPastLength : Prop :=
  ∀ (i : Instr) (s t : State) (m : Memory),
    (∀ x, x < s.lc.toNat → m.read x = s.buf.read x) → exec i s = .next t →
    (∀ x, s.lc.toNat ≤ x → t.buf.read x = s.buf.read x) ∧
    ∃ m' : Memory, exec i { s with buf := m } = .next { t with buf := m' } ∧
      (∀ x, x < s.lc.toNat → m'.read x = t.buf.read x) ∧
      ∀ x, s.lc.toNat ≤ x → m'.read x = m.read x

/-- R79: a host that follows every `CMD` write by a `wait` never meets `BUSY = 1` except in a poll, and
no protocol violation is ever recorded; programs that write `CMD` only through `op` are such hosts. -/
def Obligations.WaitingHostMeetsNoHazard : Prop :=
  (∀ s t : State, Orderly s → step s = .next t → Orderly t) ∧
  ∀ lines : List HostLine, (∀ line ∈ lines, lineWaits line = true) →
    everyCmdWaits (expandProgram lines) = true
end

