-- ==== Sys2Proof/Laws/Memory.lean ====
section
/-! SUPPORT. The laws of the buffer's bytes: a read after a write, and the canonical form kept by a
write (spec/10_state.md R39, spec/20_memory.md R63). -/

namespace Sys2Proof.Machine

theorem lookupCell_insertCell (cells : List Host.Cell) (a b : Nat) (v : Byte) :
    lookupCell (insertCell cells a v) b = if b = a then some v else lookupCell cells b := by
  induction cells with
  | nil => simp [insertCell, lookupCell, eq_comm]
  | cons cell rest ih =>
    obtain ⟨k, w⟩ := cell
    simp only [insertCell]
    split
    · simp [lookupCell, eq_comm]
    · split
      · subst_vars; simp only [lookupCell]; split <;> simp_all [eq_comm]
      · simp only [lookupCell, ih]; split <;> split <;> simp_all

/-- A read after a write. -/
theorem Memory.read_write (m : Memory) (a b : Nat) (v : Byte) :
    (m.write a v).read b = if b = a then v else m.read b := by
  simp only [Memory.read, Memory.write, lookupCell_insertCell, Memory.unlisted]
  split <;> simp

@[simp] theorem Memory.read_write_self (m : Memory) (a : Nat) (v : Byte) :
    (m.write a v).read a = v := by
  simp [Memory.read_write]

theorem Memory.read_write_other (m : Memory) {a b : Nat} (v : Byte) (h : b ≠ a) :
    (m.write a v).read b = m.read b := by
  simp [Memory.read_write, h]

@[simp] theorem Memory.write_draw (m : Memory) (a : Nat) (v : Byte) : (m.write a v).draw = m.draw := rfl

theorem risingFrom_insertCell (cells : List Host.Cell) (lo a : Nat) (v : Byte)
    (h : risingFrom lo cells = true) (ha : lo ≤ a) : risingFrom lo (insertCell cells a v) = true := by
  induction cells generalizing lo with
  | nil => simp [insertCell, risingFrom, ha]
  | cons cell rest ih =>
    obtain ⟨k, w⟩ := cell
    simp only [risingFrom, Bool.and_eq_true, decide_eq_true_eq] at h
    simp only [insertCell]
    split
    · simp only [risingFrom, Bool.and_eq_true, decide_eq_true_eq]
      exact ⟨ha, by omega, h.2⟩
    · split
      · subst_vars; simpa [risingFrom] using h
      · simp only [risingFrom, Bool.and_eq_true, decide_eq_true_eq]
        exact ⟨h.1, ih (k + 1) h.2 (by omega)⟩

/-- A write keeps the canonical form. -/
theorem Memory.write_wf (m : Memory) (a : Nat) (v : Byte) (h : m.wf = true) :
    (m.write a v).wf = true :=
  risingFrom_insertCell m.cells 0 a v h (Nat.zero_le a)

theorem insertCell_all_lt (cells : List Host.Cell) (cap a : Nat) (v : Byte)
    (h : (cells.all fun cell => decide (cell.1 < cap)) = true) (ha : a < cap) :
    ((insertCell cells a v).all fun cell => decide (cell.1 < cap)) = true := by
  induction cells with
  | nil => simpa [insertCell] using ha
  | cons cell rest ih =>
    obtain ⟨k, w⟩ := cell
    simp only [List.all_cons, Bool.and_eq_true, decide_eq_true_eq] at h
    simp only [insertCell]
    split
    · simp only [List.all_cons, Bool.and_eq_true, decide_eq_true_eq]; exact ⟨ha, h⟩
    · split
      · simp only [List.all_cons, Bool.and_eq_true, decide_eq_true_eq]; exact ⟨ha, h.2⟩
      · simp only [List.all_cons, Bool.and_eq_true, decide_eq_true_eq]; exact ⟨h.1, ih h.2⟩

/-- A write below the capacity keeps every listed address below it. -/
theorem Memory.write_within (m : Memory) {cap a : Nat} (v : Byte) (h : m.within cap = true)
    (ha : a < cap) : (m.write a v).within cap = true :=
  insertCell_all_lt m.cells cap a v h ha

/-- Reset's and power-on's buffer, with nothing listed, is in canonical form. -/
theorem Memory.empty_wf (draw : Nat) : Memory.wf { cells := [], draw := draw } = true := rfl

theorem Memory.empty_within (draw cap : Nat) :
    Memory.within { cells := [], draw := draw } cap = true := rfl

@[simp] theorem Memory.bytes_length (m : Memory) (a n : Nat) : (m.bytes a n).length = n := by
  induction n generalizing a with
  | zero => rfl
  | succ n ih => simp [Memory.bytes, ih]

/-- Two buffers that read alike over a range give the same bytes, at addresses shifted by `k`. -/
theorem Memory.bytes_congr (m m' : Memory) (k a n : Nat)
    (h : ∀ x, a ≤ x → x < a + n → m'.read x = m.read (k + x)) :
    m'.bytes a n = m.bytes (k + a) n := by
  induction n generalizing a with
  | zero => rfl
  | succ n ih =>
    simp only [Memory.bytes]
    rw [h a (Nat.le_refl a) (by omega), ih (a + 1) (fun x h1 h2 => h x (by omega) (by omega))]
    rfl

end Sys2Proof.Machine
end

