-- ==== Sys2Proof/Laws/CrcEngine.lean ====
section
/-! SUPPORT. When two buffers give the same CRC over a range (spec/41_crc_engine.md R122, R125). -/

namespace Sys2Proof.Machine

/-- An empty or inverted range gives the initial value. -/
theorem Memory.crcRange_empty (m : Memory) {first last : Nat} (init : Crc) (h : last ≤ first) :
    m.crcRange first last init = init := by
  rw [Memory.crcRange, if_neg (by omega)]

/-- A range with a byte in it is the fold over its bytes. -/
theorem Memory.crcRange_fold (m : Memory) {first last : Nat} (init : Crc) (h : first < last) :
    m.crcRange first last init = crcOf (m.bytes first (last - first)) init := by
  rw [Memory.crcRange, if_pos h]

/-- Only the bytes of the range matter, at addresses shifted by `k`. -/
theorem Memory.crcRange_congr (m m' : Memory) (k first last : Nat) (init : Crc)
    (h : ∀ x, first ≤ x → x < last → m'.read x = m.read (k + x)) :
    m'.crcRange first last init = m.crcRange (k + first) (k + last) init := by
  by_cases hr : first < last
  · rw [m'.crcRange_fold init hr, m.crcRange_fold init (by omega),
      m.bytes_congr m' k first (last - first) (fun x h1 h2 => h x h1 (by omega))]
    congr 2; omega
  · rw [m'.crcRange_empty init (by omega), m.crcRange_empty init (by omega)]

end Sys2Proof.Machine
end

