-- ==== Sys2Proof/Laws/FieldMutator.lean ====
section
/-! SUPPORT. What the field mutator's primitives do to every byte (spec/40_bit_accessor.md R100 to
R104), and that they keep the canonical form. -/

namespace Sys2Proof.Machine

/-- The byte that `set_bit` leaves at address `b`. -/
theorem Memory.read_setBit (m : Memory) (lc : Nat) (v : BitVec 1) (o b : Nat) :
    (m.setBit lc v o).read b =
      if b = o / 8 ∧ o / 8 < lc then
        if v = 1#1 then m.read b ||| (1#8 <<< (7 - o % 8)) else m.read b &&& ~~~(1#8 <<< (7 - o % 8))
      else m.read b := by
  simp only [Memory.setBit]
  split
  · split <;> simp only [Memory.read_write] <;> split <;> simp_all
  · simp_all

/-- The byte that `set_byte_at_bit` leaves at address `b`. -/
theorem Memory.read_setByteAtBit (m : Memory) (lc : Nat) (v : Byte) (o b : Nat) :
    (m.setByteAtBit lc v o).read b =
      if o % 8 = 0 then if b = o / 8 ∧ o / 8 < lc then v else m.read b
      else if o / 8 + 1 < lc then
        if b = o / 8 + 1 then (m.read b &&& (0xFF#8 >>> (o % 8))) ||| (v <<< (8 - o % 8))
        else if b = o / 8 then (m.read b &&& ~~~(0xFF#8 >>> (o % 8))) ||| (v >>> (o % 8))
        else m.read b
      else m.read b := by
  simp only [Memory.setByteAtBit]
  split
  · split
    · simp only [Memory.read_write]; split <;> simp_all
    · simp_all
  · split
    · simp only [Memory.read_write]
      by_cases h1 : b = o / 8 + 1
      · simp [h1]
      · by_cases h2 : b = o / 8 <;> simp [h1, h2]
    · rfl

/-- A byte that `set_bit` does not reach. -/
theorem Memory.read_setBit_other (m : Memory) (lc : Nat) (v : BitVec 1) (o b : Nat)
    (h : b ≠ o / 8 ∨ lc ≤ b) : (m.setBit lc v o).read b = m.read b := by
  rw [Memory.read_setBit, if_neg (by omega)]

/-- A byte that `set_byte_at_bit` does not reach. -/
theorem Memory.read_setByteAtBit_other (m : Memory) (lc : Nat) (v : Byte) (o b : Nat)
    (h : (b ≠ o / 8 ∧ b ≠ o / 8 + 1) ∨ lc ≤ b) : (m.setByteAtBit lc v o).read b = m.read b := by
  rw [Memory.read_setByteAtBit]
  split
  · rw [if_neg (by omega)]
  · split
    · rw [if_neg (by omega), if_neg (by omega)]
    · rfl

/-- `set_bit` is one write inside the buffer, or nothing. -/
theorem Memory.setBit_cases (m : Memory) (lc : Nat) (v : BitVec 1) (o : Nat) :
    m.setBit lc v o = m ∨ ∃ w, o / 8 < lc ∧ m.setBit lc v o = m.write (o / 8) w := by
  simp only [Memory.setBit]
  split
  · split <;> exact .inr ⟨_, ‹_›, rfl⟩
  · exact .inl rfl

/-- `set_byte_at_bit` is one write inside the buffer, two of them, or nothing. -/
theorem Memory.setByteAtBit_cases (m : Memory) (lc : Nat) (v : Byte) (o : Nat) :
    m.setByteAtBit lc v o = m ∨ (o / 8 < lc ∧ m.setByteAtBit lc v o = m.write (o / 8) v) ∨
      ∃ w w', o / 8 + 1 < lc ∧ m.setByteAtBit lc v o = (m.write (o / 8) w).write (o / 8 + 1) w' := by
  simp only [Memory.setByteAtBit]
  split
  · split
    · exact .inr (.inl ⟨‹_›, rfl⟩)
    · exact .inl rfl
  · split
    · exact .inr (.inr ⟨_, _, ‹_›, rfl⟩)
    · exact .inl rfl

theorem Memory.setBit_wf (m : Memory) (lc : Nat) (v : BitVec 1) (o : Nat) (h : m.wf = true) :
    (m.setBit lc v o).wf = true := by
  obtain he | ⟨w, -, he⟩ := m.setBit_cases lc v o <;> rw [he]
  · exact h
  · exact m.write_wf _ _ h

theorem Memory.setByteAtBit_wf (m : Memory) (lc : Nat) (v : Byte) (o : Nat) (h : m.wf = true) :
    (m.setByteAtBit lc v o).wf = true := by
  obtain he | ⟨-, he⟩ | ⟨w, w', -, he⟩ := m.setByteAtBit_cases lc v o <;> rw [he]
  · exact h
  · exact m.write_wf _ _ h
  · exact Memory.write_wf _ _ _ (m.write_wf _ _ h)

theorem Memory.setBit_within (m : Memory) {cap lc : Nat} (v : BitVec 1) (o : Nat)
    (h : m.within cap = true) (hlc : lc ≤ cap) : (m.setBit lc v o).within cap = true := by
  obtain he | ⟨w, hw, he⟩ := m.setBit_cases lc v o <;> rw [he]
  · exact h
  · exact m.write_within _ h (by omega)

theorem Memory.setByteAtBit_within (m : Memory) {cap lc : Nat} (v : Byte) (o : Nat)
    (h : m.within cap = true) (hlc : lc ≤ cap) : (m.setByteAtBit lc v o).within cap = true := by
  obtain he | ⟨hw, he⟩ | ⟨w, w', hw, he⟩ := m.setByteAtBit_cases lc v o <;> rw [he]
  · exact h
  · exact m.write_within _ h (by omega)
  · exact Memory.write_within _ _ (m.write_within _ h (by omega)) (by omega)

end Sys2Proof.Machine
end

