-- ==== Sys2Proof/Laws/FrameScanner.lean ====
section
/-! SUPPORT. What the frame scanner's shared functions answer (spec/42_frame_scanner.md R140 to R145):
the search, the length, the bytes a frame's patch writes, and the canonical form. -/

namespace Sys2Proof.Machine

/-- A marker in the rule's own terms (R140). -/
theorem Memory.marker_iff (m : Memory) (lc a : Nat) :
    m.marker lc a = true ↔ a + 1 < lc ∧ m.read a = Config.syncHi ∧ m.read (a + 1) = Config.syncLo := by
  simp [Memory.marker, and_assoc]

theorem Memory.findWithin_some (m : Memory) (lc n a p : Nat) :
    m.findWithin lc n a = some p ↔
      a ≤ p ∧ p < a + n ∧ m.marker lc p = true ∧ ∀ q, a ≤ q → q < p → m.marker lc q = false := by
  induction n generalizing a with
  | zero => simp only [Memory.findWithin, reduceCtorEq, false_iff]; omega
  | succ n ih =>
    simp only [Memory.findWithin]
    split
    · rename_i hm
      simp only [Option.some.injEq]
      constructor
      · rintro rfl
        exact ⟨Nat.le_refl _, by omega, hm, fun q h1 h2 => by omega⟩
      · rintro ⟨h1, -, -, h4⟩
        by_contra hne
        simp [h4 a (Nat.le_refl a) (by omega)] at hm
    · rename_i hm
      simp only [Bool.not_eq_true] at hm
      rw [ih]
      constructor
      · rintro ⟨h1, h2, h3, h4⟩
        refine ⟨by omega, by omega, h3, fun q h5 h6 => ?_⟩
        by_cases hq : q = a
        · exact hq ▸ hm
        · exact h4 q (by omega) h6
      · rintro ⟨h1, h2, h3, h4⟩
        have : a ≠ p := by rintro rfl; simp [hm] at h3
        exact ⟨by omega, by omega, h3, fun q h5 h6 => h4 q (by omega) h6⟩

theorem Memory.findWithin_none (m : Memory) (lc n a : Nat) :
    m.findWithin lc n a = none ↔ ∀ q, a ≤ q → q < a + n → m.marker lc q = false := by
  induction n generalizing a with
  | zero => simp only [Memory.findWithin, true_iff]; intro q h1 h2; omega
  | succ n ih =>
    simp only [Memory.findWithin]
    split
    · rename_i hm
      simp only [reduceCtorEq, false_iff]
      intro h
      simp [h a (Nat.le_refl a) (by omega)] at hm
    · rename_i hm
      simp only [Bool.not_eq_true] at hm
      rw [ih]
      constructor
      · intro h q h1 h2
        by_cases hq : q = a
        · exact hq ▸ hm
        · exact h q (by omega) (by omega)
      · exact fun h q h1 h2 => h q (by omega) (by omega)

/-- What `find` answers when it finds a marker: the smallest one whose two bytes lie below the limit
(R141). -/
theorem Memory.find_some (m : Memory) (lc a lim p : Nat) :
    m.find lc a lim = some p ↔
      a ≤ p ∧ p + 1 < lim ∧ m.marker lc p = true ∧ ∀ q, a ≤ q → q < p → m.marker lc q = false := by
  rw [Memory.find, Memory.findWithin_some]
  constructor <;> rintro ⟨h1, h2, h3⟩ <;> exact ⟨h1, by omega, h3⟩

/-- When `find` answers none (R141). -/
theorem Memory.find_none (m : Memory) (lc a lim : Nat) :
    m.find lc a lim = none ↔ ∀ q, a ≤ q → q + 1 < lim → m.marker lc q = false := by
  rw [Memory.find, Memory.findWithin_none]
  constructor <;> exact fun h q h1 h2 => h q h1 (by omega)

/-- A frame is 2 to 4096 bytes long (R143). -/
theorem Memory.frameLength_bounds (m : Memory) (lc start : Nat) :
    2 ≤ m.frameLength lc start ∧ m.frameLength lc start ≤ 4096 := by
  have h : (m.frmsiz lc start).toNat < 2 ^ 11 := (m.frmsiz lc start).isLt
  simp only [Memory.frameLength]
  omega

theorem Memory.frameLength_even (m : Memory) (lc start : Nat) : m.frameLength lc start % 2 = 0 := by
  simp only [Memory.frameLength]; omega

/-- The mutation changes no byte but `start + 7`, `start + 8` and `start + 9`, and none at or past
`Lc` (R144). -/
theorem Memory.read_mutate_other (m : Memory) (lc start b : Nat)
    (h : b < start + 7 ∨ start + 10 ≤ b ∨ lc ≤ b) : (m.mutate lc start).read b = m.read b := by
  simp only [Memory.mutate]
  rw [Memory.read_setByteAtBit_other _ _ _ _ _ (by simp only [Config.chmapLoBit]; omega),
    Memory.read_setByteAtBit_other _ _ _ _ _ (by simp only [Config.chmapHiBit]; omega)]
  split
  · rw [Memory.read_setBit_other _ _ _ _ _ (by simp only [Config.flagBit]; omega)]
  · rfl

theorem Memory.mutate_wf (m : Memory) (lc start : Nat) (h : m.wf = true) :
    (m.mutate lc start).wf = true := by
  simp only [Memory.mutate]
  refine Memory.setByteAtBit_wf _ _ _ _ (Memory.setByteAtBit_wf _ _ _ _ ?_)
  split
  · exact m.setBit_wf _ _ _ h
  · exact h

theorem Memory.mutate_within (m : Memory) {cap lc : Nat} (start : Nat) (h : m.within cap = true)
    (hlc : lc ≤ cap) : (m.mutate lc start).within cap = true := by
  simp only [Memory.mutate]
  refine Memory.setByteAtBit_within _ _ _ (Memory.setByteAtBit_within _ _ _ ?_ hlc) hlc
  split
  · exact m.setBit_within _ _ h hlc
  · exact h

/-- The bytes of a checksum write (R145). -/
theorem Memory.read_writeChecksum (m : Memory) (start fl b : Nat) :
    (m.writeChecksum start fl).read b =
      if b = start + fl - 1 then (m.frameCrc start fl).extractLsb' 0 8
      else if b = start + fl - 2 then (m.frameCrc start fl).extractLsb' 8 8
      else m.read b := by
  simp only [Memory.writeChecksum, Memory.read_write]

/-- A frame's patch changes no byte outside the mutation's three and the checksum's two (R144, R145). -/
theorem Memory.read_patchFrame_other (m : Memory) (lc start fl b : Nat) (hfl : 2 ≤ fl)
    (h : b < start + 7 ∨ start + 10 ≤ b ∨ lc ≤ b) (he : b < start + fl - 2 ∨ start + fl ≤ b) :
    (m.patchFrame lc start fl).read b = m.read b := by
  rw [Memory.patchFrame, Memory.read_writeChecksum, if_neg (by omega), if_neg (by omega),
    Memory.read_mutate_other _ _ _ _ h]

theorem Memory.patchFrame_wf (m : Memory) (lc start fl : Nat) (h : m.wf = true) :
    (m.patchFrame lc start fl).wf = true := by
  simp only [Memory.patchFrame, Memory.writeChecksum]
  exact Memory.write_wf _ _ _ (Memory.write_wf _ _ _ (m.mutate_wf lc start h))

theorem Memory.patchFrame_within (m : Memory) {cap lc : Nat} (start fl : Nat)
    (h : m.within cap = true) (hlc : lc ≤ cap) (hfl : 2 ≤ fl) (he : start + fl ≤ lc) :
    (m.patchFrame lc start fl).within cap = true := by
  simp only [Memory.patchFrame, Memory.writeChecksum]
  exact Memory.write_within _ _
    (Memory.write_within _ _ (m.mutate_within start h hlc) (by omega)) (by omega)

end Sys2Proof.Machine
end

