-- ==== Sys2Proof/Laws/State.lean ====
section
/-! SUPPORT. What each named update of the state leaves in each field, true by unfolding once, so that no
proof unfolds a record update. -/

namespace Sys2Proof.Machine

@[simp] theorem State.complete_cap (s : State) (code : OutcomeCode) : (s.complete code).cap = s.cap := rfl
@[simp] theorem State.complete_len (s : State) (code : OutcomeCode) : (s.complete code).len = s.len := rfl
@[simp] theorem State.complete_argA (s : State) (code : OutcomeCode) : (s.complete code).argA = s.argA := rfl
@[simp] theorem State.complete_argB (s : State) (code : OutcomeCode) : (s.complete code).argB = s.argB := rfl
@[simp] theorem State.complete_argC (s : State) (code : OutcomeCode) : (s.complete code).argC = s.argC := rfl
@[simp] theorem State.complete_result (s : State) (code : OutcomeCode) :
    (s.complete code).result = s.result := rfl
@[simp] theorem State.complete_frameCount (s : State) (code : OutcomeCode) :
    (s.complete code).frameCount = s.frameCount := rfl
@[simp] theorem State.complete_trim (s : State) (code : OutcomeCode) : (s.complete code).trim = s.trim := rfl
@[simp] theorem State.complete_cursor (s : State) (code : OutcomeCode) :
    (s.complete code).cursor = s.cursor := rfl
@[simp] theorem State.complete_busy (s : State) (code : OutcomeCode) : (s.complete code).busy = false := rfl
@[simp] theorem State.complete_done (s : State) (code : OutcomeCode) : (s.complete code).done = true := rfl
@[simp] theorem State.complete_outcome (s : State) (code : OutcomeCode) :
    (s.complete code).outcome = code := rfl
@[simp] theorem State.complete_lastOp (s : State) (code : OutcomeCode) :
    (s.complete code).lastOp = s.lastOp := rfl
@[simp] theorem State.complete_cmdOverrun (s : State) (code : OutcomeCode) :
    (s.complete code).cmdOverrun = s.cmdOverrun := rfl
@[simp] theorem State.complete_bufConflict (s : State) (code : OutcomeCode) :
    (s.complete code).bufConflict = s.bufConflict := rfl
@[simp] theorem State.complete_phase (s : State) (code : OutcomeCode) : (s.complete code).phase = .idle := rfl
@[simp] theorem State.complete_cw (s : State) (code : OutcomeCode) : (s.complete code).cw = s.cw := rfl
@[simp] theorem State.complete_a (s : State) (code : OutcomeCode) : (s.complete code).a = s.a := rfl
@[simp] theorem State.complete_b (s : State) (code : OutcomeCode) : (s.complete code).b = s.b := rfl
@[simp] theorem State.complete_c (s : State) (code : OutcomeCode) : (s.complete code).c = s.c := rfl
@[simp] theorem State.complete_lc (s : State) (code : OutcomeCode) : (s.complete code).lc = s.lc := rfl
@[simp] theorem State.complete_buf (s : State) (code : OutcomeCode) : (s.complete code).buf = s.buf := rfl
@[simp] theorem State.complete_agenda (s : State) (code : OutcomeCode) :
    (s.complete code).agenda = s.agenda := rfl
@[simp] theorem State.complete_reply (s : State) (code : OutcomeCode) :
    (s.complete code).reply = s.reply := rfl

@[simp] theorem State.setResult_cap (s : State) (v : Word) : (s.setResult v).cap = s.cap := rfl
@[simp] theorem State.setResult_len (s : State) (v : Word) : (s.setResult v).len = s.len := rfl
@[simp] theorem State.setResult_argA (s : State) (v : Word) : (s.setResult v).argA = s.argA := rfl
@[simp] theorem State.setResult_argB (s : State) (v : Word) : (s.setResult v).argB = s.argB := rfl
@[simp] theorem State.setResult_argC (s : State) (v : Word) : (s.setResult v).argC = s.argC := rfl
@[simp] theorem State.setResult_result (s : State) (v : Word) : (s.setResult v).result = v := rfl
@[simp] theorem State.setResult_frameCount (s : State) (v : Word) :
    (s.setResult v).frameCount = s.frameCount := rfl
@[simp] theorem State.setResult_trim (s : State) (v : Word) : (s.setResult v).trim = s.trim := rfl
@[simp] theorem State.setResult_cursor (s : State) (v : Word) : (s.setResult v).cursor = s.cursor := rfl
@[simp] theorem State.setResult_busy (s : State) (v : Word) : (s.setResult v).busy = s.busy := rfl
@[simp] theorem State.setResult_done (s : State) (v : Word) : (s.setResult v).done = s.done := rfl
@[simp] theorem State.setResult_outcome (s : State) (v : Word) : (s.setResult v).outcome = s.outcome := rfl
@[simp] theorem State.setResult_lastOp (s : State) (v : Word) : (s.setResult v).lastOp = s.lastOp := rfl
@[simp] theorem State.setResult_cmdOverrun (s : State) (v : Word) :
    (s.setResult v).cmdOverrun = s.cmdOverrun := rfl
@[simp] theorem State.setResult_bufConflict (s : State) (v : Word) :
    (s.setResult v).bufConflict = s.bufConflict := rfl
@[simp] theorem State.setResult_phase (s : State) (v : Word) : (s.setResult v).phase = s.phase := rfl
@[simp] theorem State.setResult_cw (s : State) (v : Word) : (s.setResult v).cw = s.cw := rfl
@[simp] theorem State.setResult_a (s : State) (v : Word) : (s.setResult v).a = s.a := rfl
@[simp] theorem State.setResult_b (s : State) (v : Word) : (s.setResult v).b = s.b := rfl
@[simp] theorem State.setResult_c (s : State) (v : Word) : (s.setResult v).c = s.c := rfl
@[simp] theorem State.setResult_lc (s : State) (v : Word) : (s.setResult v).lc = s.lc := rfl
@[simp] theorem State.setResult_buf (s : State) (v : Word) : (s.setResult v).buf = s.buf := rfl
@[simp] theorem State.setResult_agenda (s : State) (v : Word) : (s.setResult v).agenda = s.agenda := rfl
@[simp] theorem State.setResult_reply (s : State) (v : Word) : (s.setResult v).reply = s.reply := rfl

@[simp] theorem State.accept_cap (s : State) (v : Word) : (s.accept v).cap = s.cap := rfl
@[simp] theorem State.accept_len (s : State) (v : Word) : (s.accept v).len = s.len := rfl
@[simp] theorem State.accept_argA (s : State) (v : Word) : (s.accept v).argA = s.argA := rfl
@[simp] theorem State.accept_argB (s : State) (v : Word) : (s.accept v).argB = s.argB := rfl
@[simp] theorem State.accept_argC (s : State) (v : Word) : (s.accept v).argC = s.argC := rfl
@[simp] theorem State.accept_result (s : State) (v : Word) : (s.accept v).result = s.result := rfl
@[simp] theorem State.accept_frameCount (s : State) (v : Word) :
    (s.accept v).frameCount = (if v = encode .run then 0#32 else s.frameCount) := rfl
@[simp] theorem State.accept_trim (s : State) (v : Word) :
    (s.accept v).trim = (if v = encode .run then 0#32 else s.trim) := rfl
@[simp] theorem State.accept_cursor (s : State) (v : Word) :
    (s.accept v).cursor = (if v = encode .run then 0#32 else s.cursor) := rfl
@[simp] theorem State.accept_busy (s : State) (v : Word) : (s.accept v).busy = true := rfl
@[simp] theorem State.accept_done (s : State) (v : Word) : (s.accept v).done = false := rfl
@[simp] theorem State.accept_outcome (s : State) (v : Word) : (s.accept v).outcome = .ok := rfl
@[simp] theorem State.accept_lastOp (s : State) (v : Word) : (s.accept v).lastOp = v.extractLsb' 0 8 := rfl
@[simp] theorem State.accept_cmdOverrun (s : State) (v : Word) : (s.accept v).cmdOverrun = s.cmdOverrun := rfl
@[simp] theorem State.accept_bufConflict (s : State) (v : Word) :
    (s.accept v).bufConflict = s.bufConflict := rfl
@[simp] theorem State.accept_phase (s : State) (v : Word) : (s.accept v).phase = .exec := rfl
@[simp] theorem State.accept_cw (s : State) (v : Word) : (s.accept v).cw = v := rfl
@[simp] theorem State.accept_a (s : State) (v : Word) : (s.accept v).a = s.argA := rfl
@[simp] theorem State.accept_b (s : State) (v : Word) : (s.accept v).b = s.argB := rfl
@[simp] theorem State.accept_c (s : State) (v : Word) : (s.accept v).c = s.argC := rfl
@[simp] theorem State.accept_lc (s : State) (v : Word) : (s.accept v).lc = s.len := rfl
@[simp] theorem State.accept_buf (s : State) (v : Word) : (s.accept v).buf = s.buf := rfl
@[simp] theorem State.accept_agenda (s : State) (v : Word) : (s.accept v).agenda = s.agenda := rfl
@[simp] theorem State.accept_reply (s : State) (v : Word) : (s.accept v).reply = s.reply := rfl

@[simp] theorem State.writeStatus_cap (s : State) (v : Word) : (s.writeStatus v).cap = s.cap := rfl
@[simp] theorem State.writeStatus_len (s : State) (v : Word) : (s.writeStatus v).len = s.len := rfl
@[simp] theorem State.writeStatus_argA (s : State) (v : Word) : (s.writeStatus v).argA = s.argA := rfl
@[simp] theorem State.writeStatus_argB (s : State) (v : Word) : (s.writeStatus v).argB = s.argB := rfl
@[simp] theorem State.writeStatus_argC (s : State) (v : Word) : (s.writeStatus v).argC = s.argC := rfl
@[simp] theorem State.writeStatus_result (s : State) (v : Word) : (s.writeStatus v).result = s.result := rfl
@[simp] theorem State.writeStatus_frameCount (s : State) (v : Word) :
    (s.writeStatus v).frameCount = s.frameCount := rfl
@[simp] theorem State.writeStatus_trim (s : State) (v : Word) : (s.writeStatus v).trim = s.trim := rfl
@[simp] theorem State.writeStatus_cursor (s : State) (v : Word) : (s.writeStatus v).cursor = s.cursor := rfl
@[simp] theorem State.writeStatus_busy (s : State) (v : Word) : (s.writeStatus v).busy = s.busy := rfl
@[simp] theorem State.writeStatus_done (s : State) (v : Word) : (s.writeStatus v).done = s.done := rfl
@[simp] theorem State.writeStatus_outcome (s : State) (v : Word) :
    (s.writeStatus v).outcome = s.outcome := rfl
@[simp] theorem State.writeStatus_lastOp (s : State) (v : Word) : (s.writeStatus v).lastOp = s.lastOp := rfl
@[simp] theorem State.writeStatus_cmdOverrun (s : State) (v : Word) :
    (s.writeStatus v).cmdOverrun = (s.cmdOverrun && !v.getLsbD 16) := rfl
@[simp] theorem State.writeStatus_bufConflict (s : State) (v : Word) :
    (s.writeStatus v).bufConflict = (s.bufConflict && !v.getLsbD 17) := rfl
@[simp] theorem State.writeStatus_phase (s : State) (v : Word) : (s.writeStatus v).phase = s.phase := rfl
@[simp] theorem State.writeStatus_cw (s : State) (v : Word) : (s.writeStatus v).cw = s.cw := rfl
@[simp] theorem State.writeStatus_a (s : State) (v : Word) : (s.writeStatus v).a = s.a := rfl
@[simp] theorem State.writeStatus_b (s : State) (v : Word) : (s.writeStatus v).b = s.b := rfl
@[simp] theorem State.writeStatus_c (s : State) (v : Word) : (s.writeStatus v).c = s.c := rfl
@[simp] theorem State.writeStatus_lc (s : State) (v : Word) : (s.writeStatus v).lc = s.lc := rfl
@[simp] theorem State.writeStatus_buf (s : State) (v : Word) : (s.writeStatus v).buf = s.buf := rfl
@[simp] theorem State.writeStatus_agenda (s : State) (v : Word) : (s.writeStatus v).agenda = s.agenda := rfl
@[simp] theorem State.writeStatus_reply (s : State) (v : Word) : (s.writeStatus v).reply = s.reply := rfl

@[simp] theorem State.setCmdOverrun_cap (s : State) : s.setCmdOverrun.cap = s.cap := rfl
@[simp] theorem State.setCmdOverrun_len (s : State) : s.setCmdOverrun.len = s.len := rfl
@[simp] theorem State.setCmdOverrun_argA (s : State) : s.setCmdOverrun.argA = s.argA := rfl
@[simp] theorem State.setCmdOverrun_argB (s : State) : s.setCmdOverrun.argB = s.argB := rfl
@[simp] theorem State.setCmdOverrun_argC (s : State) : s.setCmdOverrun.argC = s.argC := rfl
@[simp] theorem State.setCmdOverrun_result (s : State) : s.setCmdOverrun.result = s.result := rfl
@[simp] theorem State.setCmdOverrun_frameCount (s : State) : s.setCmdOverrun.frameCount = s.frameCount := rfl
@[simp] theorem State.setCmdOverrun_trim (s : State) : s.setCmdOverrun.trim = s.trim := rfl
@[simp] theorem State.setCmdOverrun_cursor (s : State) : s.setCmdOverrun.cursor = s.cursor := rfl
@[simp] theorem State.setCmdOverrun_busy (s : State) : s.setCmdOverrun.busy = s.busy := rfl
@[simp] theorem State.setCmdOverrun_done (s : State) : s.setCmdOverrun.done = s.done := rfl
@[simp] theorem State.setCmdOverrun_outcome (s : State) : s.setCmdOverrun.outcome = s.outcome := rfl
@[simp] theorem State.setCmdOverrun_lastOp (s : State) : s.setCmdOverrun.lastOp = s.lastOp := rfl
@[simp] theorem State.setCmdOverrun_cmdOverrun (s : State) : s.setCmdOverrun.cmdOverrun = true := rfl
@[simp] theorem State.setCmdOverrun_bufConflict (s : State) :
    s.setCmdOverrun.bufConflict = s.bufConflict := rfl
@[simp] theorem State.setCmdOverrun_phase (s : State) : s.setCmdOverrun.phase = s.phase := rfl
@[simp] theorem State.setCmdOverrun_cw (s : State) : s.setCmdOverrun.cw = s.cw := rfl
@[simp] theorem State.setCmdOverrun_a (s : State) : s.setCmdOverrun.a = s.a := rfl
@[simp] theorem State.setCmdOverrun_b (s : State) : s.setCmdOverrun.b = s.b := rfl
@[simp] theorem State.setCmdOverrun_c (s : State) : s.setCmdOverrun.c = s.c := rfl
@[simp] theorem State.setCmdOverrun_lc (s : State) : s.setCmdOverrun.lc = s.lc := rfl
@[simp] theorem State.setCmdOverrun_buf (s : State) : s.setCmdOverrun.buf = s.buf := rfl
@[simp] theorem State.setCmdOverrun_agenda (s : State) : s.setCmdOverrun.agenda = s.agenda := rfl
@[simp] theorem State.setCmdOverrun_reply (s : State) : s.setCmdOverrun.reply = s.reply := rfl

@[simp] theorem State.setBufConflict_cap (s : State) : s.setBufConflict.cap = s.cap := rfl
@[simp] theorem State.setBufConflict_len (s : State) : s.setBufConflict.len = s.len := rfl
@[simp] theorem State.setBufConflict_argA (s : State) : s.setBufConflict.argA = s.argA := rfl
@[simp] theorem State.setBufConflict_argB (s : State) : s.setBufConflict.argB = s.argB := rfl
@[simp] theorem State.setBufConflict_argC (s : State) : s.setBufConflict.argC = s.argC := rfl
@[simp] theorem State.setBufConflict_result (s : State) : s.setBufConflict.result = s.result := rfl
@[simp] theorem State.setBufConflict_frameCount (s : State) :
    s.setBufConflict.frameCount = s.frameCount := rfl
@[simp] theorem State.setBufConflict_trim (s : State) : s.setBufConflict.trim = s.trim := rfl
@[simp] theorem State.setBufConflict_cursor (s : State) : s.setBufConflict.cursor = s.cursor := rfl
@[simp] theorem State.setBufConflict_busy (s : State) : s.setBufConflict.busy = s.busy := rfl
@[simp] theorem State.setBufConflict_done (s : State) : s.setBufConflict.done = s.done := rfl
@[simp] theorem State.setBufConflict_outcome (s : State) : s.setBufConflict.outcome = s.outcome := rfl
@[simp] theorem State.setBufConflict_lastOp (s : State) : s.setBufConflict.lastOp = s.lastOp := rfl
@[simp] theorem State.setBufConflict_cmdOverrun (s : State) :
    s.setBufConflict.cmdOverrun = s.cmdOverrun := rfl
@[simp] theorem State.setBufConflict_bufConflict (s : State) : s.setBufConflict.bufConflict = true := rfl
@[simp] theorem State.setBufConflict_phase (s : State) : s.setBufConflict.phase = s.phase := rfl
@[simp] theorem State.setBufConflict_cw (s : State) : s.setBufConflict.cw = s.cw := rfl
@[simp] theorem State.setBufConflict_a (s : State) : s.setBufConflict.a = s.a := rfl
@[simp] theorem State.setBufConflict_b (s : State) : s.setBufConflict.b = s.b := rfl
@[simp] theorem State.setBufConflict_c (s : State) : s.setBufConflict.c = s.c := rfl
@[simp] theorem State.setBufConflict_lc (s : State) : s.setBufConflict.lc = s.lc := rfl
@[simp] theorem State.setBufConflict_buf (s : State) : s.setBufConflict.buf = s.buf := rfl
@[simp] theorem State.setBufConflict_agenda (s : State) : s.setBufConflict.agenda = s.agenda := rfl
@[simp] theorem State.setBufConflict_reply (s : State) : s.setBufConflict.reply = s.reply := rfl

@[simp] theorem State.writeLen_cap (s : State) (v : Word) : (s.writeLen v).cap = s.cap := rfl
@[simp] theorem State.writeLen_len (s : State) (v : Word) :
    (s.writeLen v).len = BitVec.ofNat 32 (min v.toNat s.cap) := rfl
@[simp] theorem State.writeLen_argA (s : State) (v : Word) : (s.writeLen v).argA = s.argA := rfl
@[simp] theorem State.writeLen_argB (s : State) (v : Word) : (s.writeLen v).argB = s.argB := rfl
@[simp] theorem State.writeLen_argC (s : State) (v : Word) : (s.writeLen v).argC = s.argC := rfl
@[simp] theorem State.writeLen_result (s : State) (v : Word) : (s.writeLen v).result = s.result := rfl
@[simp] theorem State.writeLen_frameCount (s : State) (v : Word) :
    (s.writeLen v).frameCount = s.frameCount := rfl
@[simp] theorem State.writeLen_trim (s : State) (v : Word) : (s.writeLen v).trim = s.trim := rfl
@[simp] theorem State.writeLen_cursor (s : State) (v : Word) : (s.writeLen v).cursor = s.cursor := rfl
@[simp] theorem State.writeLen_busy (s : State) (v : Word) : (s.writeLen v).busy = s.busy := rfl
@[simp] theorem State.writeLen_done (s : State) (v : Word) : (s.writeLen v).done = s.done := rfl
@[simp] theorem State.writeLen_outcome (s : State) (v : Word) : (s.writeLen v).outcome = s.outcome := rfl
@[simp] theorem State.writeLen_lastOp (s : State) (v : Word) : (s.writeLen v).lastOp = s.lastOp := rfl
@[simp] theorem State.writeLen_cmdOverrun (s : State) (v : Word) :
    (s.writeLen v).cmdOverrun = s.cmdOverrun := rfl
@[simp] theorem State.writeLen_bufConflict (s : State) (v : Word) :
    (s.writeLen v).bufConflict = s.bufConflict := rfl
@[simp] theorem State.writeLen_phase (s : State) (v : Word) : (s.writeLen v).phase = s.phase := rfl
@[simp] theorem State.writeLen_cw (s : State) (v : Word) : (s.writeLen v).cw = s.cw := rfl
@[simp] theorem State.writeLen_a (s : State) (v : Word) : (s.writeLen v).a = s.a := rfl
@[simp] theorem State.writeLen_b (s : State) (v : Word) : (s.writeLen v).b = s.b := rfl
@[simp] theorem State.writeLen_c (s : State) (v : Word) : (s.writeLen v).c = s.c := rfl
@[simp] theorem State.writeLen_lc (s : State) (v : Word) : (s.writeLen v).lc = s.lc := rfl
@[simp] theorem State.writeLen_buf (s : State) (v : Word) : (s.writeLen v).buf = s.buf := rfl
@[simp] theorem State.writeLen_agenda (s : State) (v : Word) : (s.writeLen v).agenda = s.agenda := rfl
@[simp] theorem State.writeLen_reply (s : State) (v : Word) : (s.writeLen v).reply = s.reply := rfl

@[simp] theorem State.pollStatus_cap (s : State) : s.pollStatus.cap = s.cap := rfl
@[simp] theorem State.pollStatus_len (s : State) : s.pollStatus.len = s.len := rfl
@[simp] theorem State.pollStatus_argA (s : State) : s.pollStatus.argA = s.argA := rfl
@[simp] theorem State.pollStatus_argB (s : State) : s.pollStatus.argB = s.argB := rfl
@[simp] theorem State.pollStatus_argC (s : State) : s.pollStatus.argC = s.argC := rfl
@[simp] theorem State.pollStatus_result (s : State) : s.pollStatus.result = s.result := rfl
@[simp] theorem State.pollStatus_frameCount (s : State) : s.pollStatus.frameCount = s.frameCount := rfl
@[simp] theorem State.pollStatus_trim (s : State) : s.pollStatus.trim = s.trim := rfl
@[simp] theorem State.pollStatus_cursor (s : State) : s.pollStatus.cursor = s.cursor := rfl
@[simp] theorem State.pollStatus_busy (s : State) : s.pollStatus.busy = s.busy := rfl
@[simp] theorem State.pollStatus_done (s : State) : s.pollStatus.done = s.done := rfl
@[simp] theorem State.pollStatus_outcome (s : State) : s.pollStatus.outcome = s.outcome := rfl
@[simp] theorem State.pollStatus_lastOp (s : State) : s.pollStatus.lastOp = s.lastOp := rfl
@[simp] theorem State.pollStatus_cmdOverrun (s : State) : s.pollStatus.cmdOverrun = s.cmdOverrun := rfl
@[simp] theorem State.pollStatus_bufConflict (s : State) : s.pollStatus.bufConflict = s.bufConflict := rfl
@[simp] theorem State.pollStatus_phase (s : State) : s.pollStatus.phase = s.phase := rfl
@[simp] theorem State.pollStatus_cw (s : State) : s.pollStatus.cw = s.cw := rfl
@[simp] theorem State.pollStatus_a (s : State) : s.pollStatus.a = s.a := rfl
@[simp] theorem State.pollStatus_b (s : State) : s.pollStatus.b = s.b := rfl
@[simp] theorem State.pollStatus_c (s : State) : s.pollStatus.c = s.c := rfl
@[simp] theorem State.pollStatus_lc (s : State) : s.pollStatus.lc = s.lc := rfl
@[simp] theorem State.pollStatus_buf (s : State) : s.pollStatus.buf = s.buf := rfl
@[simp] theorem State.pollStatus_agenda (s : State) :
    s.pollStatus.agenda = (if s.statusWord.getLsbD 0 then .engine :: .wait :: s.agenda else s.agenda) := rfl
@[simp] theorem State.pollStatus_reply (s : State) : s.pollStatus.reply = some s.statusWord := rfl

/-- What reset keeps: the capacity, `BUF`, and what is not the block's. -/
theorem State.resetEvent_eq (s : State) : s.resetEvent =
    { State.reset with cap := s.cap, buf := s.buf, agenda := s.agenda, reply := s.reply } := rfl

theorem State.powerOnEvent_eq (s : State) : s.powerOnEvent =
    { s.resetEvent with buf := { cells := [], draw := s.buf.draw + 1 } } := rfl

end Sys2Proof.Machine
end

