-- ==== Sys2Proof/Laws/Engine.lean ====
section
/-! SUPPORT. What a step can do (spec/10_state.md R42, spec/20_memory.md R63), said once. -/

namespace Sys2Proof.Machine

/-- What the seek step of `RUN` can do (spec/42_frame_scanner.md R150). -/
theorem runSeek_cases (s : State) :
    (s.buf.find s.opLc 0 s.opLc = none ∧ runSeek s = (s.setResult 0#32).complete .noSync) ∨
    ∃ k, s.buf.find s.opLc 0 s.opLc = some k ∧
      runSeek s = { s with trim := BitVec.ofNat 32 k, phase := .runLoop } := by
  unfold runSeek
  cases h : s.buf.find s.opLc 0 s.opLc with
  | none => exact .inl ⟨rfl, rfl⟩
  | some k => exact .inr ⟨k, rfl, rfl⟩

/-- What a loop iteration of `RUN` can do (R151): it completes with one of three outcomes, resyncs, or
patches a frame. -/
theorem runIteration_cases (s : State) :
    (s.runLength - s.cursor.toNat < 5 ∧
      runIteration s = (s.setResult s.frameCount).complete .ok) ∨
    (5 ≤ s.runLength - s.cursor.toNat ∧
      ((s.buf.marker s.opLc s.runPosition = false ∧
          ((s.buf.find s.opLc (s.runPosition + 1) (min (s.runPosition + 1 + 4096) s.opLc) = none ∧
              runIteration s = (s.setResult s.frameCount).complete .resyncExhausted) ∨
            ∃ p, s.buf.find s.opLc (s.runPosition + 1) (min (s.runPosition + 1 + 4096) s.opLc)
                = some p ∧
              runIteration s = { s with cursor := BitVec.ofNat 32 (p - s.trim.toNat) })) ∨
        (s.buf.marker s.opLc s.runPosition = true ∧
          ((s.runLength < s.cursor.toNat + s.buf.frameLength s.opLc s.runPosition ∧
              runIteration s = (s.setResult s.frameCount).complete .truncated) ∨
            (s.cursor.toNat + s.buf.frameLength s.opLc s.runPosition ≤ s.runLength ∧
              runIteration s = { s with
                buf := s.buf.patchFrame s.opLc s.runPosition (s.buf.frameLength s.opLc s.runPosition)
                frameCount := s.frameCount + 1#32
                cursor := BitVec.ofNat 32
                  (s.cursor.toNat + s.buf.frameLength s.opLc s.runPosition) }))))) := by
  simp only [runIteration, Config.minRemain, Config.resyncWindow]
  by_cases h5 : s.runLength - s.cursor.toNat < 5
  · exact .inl ⟨h5, by rw [if_pos h5]⟩
  · refine .inr ⟨by omega, ?_⟩
    rw [if_neg h5]
    cases hm : s.buf.marker s.opLc s.runPosition with
    | false =>
      refine .inl ⟨rfl, ?_⟩
      cases hf : s.buf.find s.opLc (s.runPosition + 1) (min (s.runPosition + 1 + 4096) s.opLc) with
      | none => exact .inl ⟨rfl, by simp⟩
      | some p => exact .inr ⟨p, rfl, by simp⟩
    | true =>
      refine .inr ⟨rfl, ?_⟩
      by_cases hl : s.runLength < s.cursor.toNat + s.buf.frameLength s.opLc s.runPosition
      · exact .inl ⟨hl, by simp [hl]⟩
      · exact .inr ⟨by omega, by simp [hl]⟩

/-- What the engine step can do: nothing in `IDLE`, one command's step, or the refusal of an illegal
word by its outcome. -/
theorem engineStep_cases (s : State) :
    (s.phase = .idle ∧ engineStep s = .next s) ∨
    (s.phase = .exec ∧ ∃ i, decode s.cw = .ok i ∧ engineStep s = exec i s) ∨
    (s.phase = .exec ∧ ∃ e, decode s.cw = .error e ∧
      engineStep s = .next (s.complete .illegalCmd)) ∨
    (s.phase = .runLoop ∧ engineStep s = exec .run s) := by
  unfold engineStep
  cases hp : s.phase with
  | idle => exact .inl ⟨rfl, rfl⟩
  | exec =>
    cases hd : decode s.cw with
    | ok i => exact .inr (.inl ⟨rfl, i, rfl, rfl⟩)
    | error e => exact .inr (.inr (.inl ⟨rfl, e, rfl, rfl⟩))
  | runLoop => exact .inr (.inr (.inr ⟨rfl, rfl⟩))

/-- A step is an engine step when no move is left, and the agenda's next move otherwise. -/
theorem step_cases (s : State) :
    (s.agenda = [] ∧ step s = engineStep s) ∨
    ∃ turn rest, s.agenda = turn :: rest ∧ step s = takeTurn turn { s with agenda := rest } := by
  unfold step nextMove
  cases s.agenda with
  | nil => exact .inl ⟨rfl, rfl⟩
  | cons turn rest => exact .inr ⟨turn, rest, rfl, rfl⟩

end Sys2Proof.Machine
end

