-- ==== Sys2Proof/Laws/HostPort.lean ====
section
/-! SUPPORT. What a host transaction can do (spec/20_memory.md R52, R53), said once. -/

namespace Sys2Proof.Machine

/-- What a register write can do to the state (spec/10_state.md R24 to R37, R41). -/
theorem State.writeReg_cases (s : State) (off : Nat) (v : Word) :
    (off = 0x04 ∧ s.busy = true ∧ s.writeReg off v = s.setCmdOverrun) ∨
    (off = 0x04 ∧ s.busy = false ∧ s.writeReg off v = s.accept v) ∨
    (off = 0x08 ∧ s.writeReg off v = s.writeStatus v) ∨
    (off = 0x0C ∧ s.writeReg off v = s.writeLen v) ∨
    (off = 0x10 ∧ s.writeReg off v = { s with argA := v }) ∨
    (off = 0x14 ∧ s.writeReg off v = { s with argB := v }) ∨
    (off = 0x18 ∧ s.writeReg off v = { s with argC := v }) ∨
    (off ≠ 0x04 ∧ s.writeReg off v = s) := by
  unfold State.writeReg State.writeCmd
  cases s.busy <;> split_ifs <;> simp_all

/-- What a host transaction that is not refused can do. -/
theorem hostTransaction_cases (tx : Transaction) (s t : State) (h : hostTransaction tx s = .next t) :
    (∃ off, t = { s with reply := some (s.readReg off) }) ∨
    (∃ off v, tx = .regWrite 32 off v ∧ t = s.writeReg off v) ∨
    (∃ a, t = s.hostReadByte a) ∨ (∃ a v, t = s.hostWriteByte a v) := by
  cases tx with
  | regRead width off =>
    simp only [hostTransaction] at h
    split at h
    · injection h with h; exact .inl ⟨off, h.symm⟩
    · cases h
  | regWrite width off v =>
    simp only [hostTransaction] at h
    split at h
    · rename_i hw
      injection h with h
      have : width = 32 := by
        simp only [regAccessWellFormed, Bool.and_eq_true, decide_eq_true_eq] at hw; exact hw.1.1
      exact .inr (.inl ⟨off, v, by rw [this], h.symm⟩)
    · cases h
  | bufRead a =>
    simp only [hostTransaction] at h
    injection h with h
    exact .inr (.inr (.inl ⟨a, h.symm⟩))
  | bufWrite a v =>
    simp only [hostTransaction] at h
    injection h with h
    exact .inr (.inr (.inr ⟨a, v, h.symm⟩))

/-- What a host write of a buffer byte can do. -/
theorem State.hostWriteByte_cases (s : State) (a : Nat) (v : Word) :
    (s.busy = true ∧ s.hostWriteByte a v = s.setBufConflict) ∨
    (s.busy = false ∧ s.cap ≤ a ∧ s.hostWriteByte a v = s) ∨
    (s.busy = false ∧ a < s.cap ∧
      s.hostWriteByte a v = { s with buf := s.buf.write a (v.extractLsb' 0 8) }) := by
  unfold State.hostWriteByte
  by_cases h : s.cap ≤ a
  · cases s.busy <;> simp [h]
  · have h' : a < s.cap := by omega
    cases s.busy <;> simp [h']

end Sys2Proof.Machine
end

