-- ==== Sys2Proof/Laws/Operands.lean ====
section
/-! SUPPORT. The operands in terms of the latched registers (spec/30_encoding.md R73), and the pass's
derived lengths (spec/10_state.md R40). -/

namespace Sys2Proof.Machine

@[simp] theorem State.opLc_eq (s : State) : s.opLc = s.lc.toNat := rfl
@[simp] theorem State.opBitOffset_eq (s : State) : s.opBitOffset = s.a.toNat := rfl
@[simp] theorem State.opByteIndex_eq (s : State) : s.opByteIndex = s.a.toNat := rfl
@[simp] theorem State.opEndIndex_eq (s : State) : s.opEndIndex = s.b.toNat := rfl
@[simp] theorem State.opWindow_eq (s : State) : s.opWindow = s.b.toNat := rfl
@[simp] theorem State.opBitValue_eq (s : State) : s.opBitValue = s.b.extractLsb' 0 1 := rfl
@[simp] theorem State.opByteValue_eq (s : State) : s.opByteValue = s.b.extractLsb' 0 8 := rfl
@[simp] theorem State.opCrc_eq (s : State) : s.opCrc = s.c.extractLsb' 0 16 := rfl
@[simp] theorem State.runLength_eq (s : State) : s.runLength = s.lc.toNat - s.trim.toNat := rfl
@[simp] theorem State.runPosition_eq (s : State) :
    s.runPosition = s.trim.toNat + s.cursor.toNat := rfl

end Sys2Proof.Machine
end

