-- ==== Sys2Proof/Laws/PerInstr.lean ====
section
/-! SUPPORT. The family `UnitNibble` of statements about every command: its word has no reserved bit
set, and the high nibble of its opcode names its unit (spec/30_encoding.md R70, R71). -/

namespace Sys2Proof.Laws

/-- The unit's nibble of `OP`: `0x0` the field mutator, `0x1` the CRC-16 engine, `0x2` the frame
scanner (R71). -/
def unitNibble : Instr → BitVec 4
  | .getBit => 0x0#4
  | .setBit => 0x0#4
  | .setByteAtBit => 0x0#4
  | .crcTable => 0x1#4
  | .crcByte => 0x1#4
  | .crcCompute => 0x1#4
  | .syncFind => 0x2#4
  | .lenDecode => 0x2#4
  | .framePatch => 0x2#4
  | .run => 0x2#4

/-- The command's word has `RSV = 0` and its unit's nibble. -/
def UnitNibble.Statement (i : Instr) : Prop :=
  i.wellFormed = true ∧ (encode i).extractLsb' 8 24 = 0#24 ∧ (encode i).extractLsb' 4 4 = unitNibble i

theorem UnitNibble.getBit : UnitNibble.Statement .getBit := by unfold UnitNibble.Statement; decide
theorem UnitNibble.setBit : UnitNibble.Statement .setBit := by unfold UnitNibble.Statement; decide
theorem UnitNibble.setByteAtBit : UnitNibble.Statement .setByteAtBit := by
  unfold UnitNibble.Statement; decide
theorem UnitNibble.crcTable : UnitNibble.Statement .crcTable := by unfold UnitNibble.Statement; decide
theorem UnitNibble.crcByte : UnitNibble.Statement .crcByte := by unfold UnitNibble.Statement; decide
theorem UnitNibble.crcCompute : UnitNibble.Statement .crcCompute := by
  unfold UnitNibble.Statement; decide
theorem UnitNibble.syncFind : UnitNibble.Statement .syncFind := by unfold UnitNibble.Statement; decide
theorem UnitNibble.lenDecode : UnitNibble.Statement .lenDecode := by
  unfold UnitNibble.Statement; decide
theorem UnitNibble.framePatch : UnitNibble.Statement .framePatch := by
  unfold UnitNibble.Statement; decide
theorem UnitNibble.run : UnitNibble.Statement .run := by unfold UnitNibble.Statement; decide

end Sys2Proof.Laws
end

