-- ==== Sys2Proof/Tests/Slice0.lean ====
section
/-! SUPPORT. The model's own tests. Expected values come from the encodings of spec/30_encoding.md, the
table of spec/41_crc_engine.md and the vectors of spec/95_test_vectors.md, each named where it is used. -/

namespace Sys2Proof.Tests

open Sys2Proof.Machine Sys2Proof.Safety

/-! ### Small states -/

/-- The bytes listed from address `a` on. -/
def cellsFrom : Nat → List Byte → List Host.Cell
  | _, [] => []
  | a, v :: rest => (a, v) :: cellsFrom (a + 1) rest

/-- The engine about to take the first step of the command `i`: `BUF_CAP = 64`, the buffer the given
bytes, `Lc` their number. -/
def ready (i : Instr) (a b c : Word) (bytes : List Byte) : State :=
  { State.reset with
    cap := 64, len := BitVec.ofNat 32 bytes.length, lc := BitVec.ofNat 32 bytes.length
    argA := a, argB := b, argC := c, a := a, b := b, c := c, cw := encode i
    lastOp := (encode i).extractLsb' 0 8, busy := true, phase := .exec
    buf := { cells := cellsFrom 0 bytes, draw := 0 } }

/-- The engine inside the loop of a `RUN`. -/
def looping (trim cursor : Word) (bytes : List Byte) : State :=
  { ready .run 0#32 0#32 0#32 bytes with phase := .runLoop, trim := trim, cursor := cursor }

/-- The idle block after reset with `BUF_CAP = 64`, its buffer the given bytes, and the moves to come. -/
def idle (bytes : List Byte) (agenda : List Turn) : State :=
  { State.reset with
    cap := 64, len := BitVec.ofNat 32 bytes.length
    buf := { cells := cellsFrom 0 bytes, draw := 0 }, agenda := agenda }

/-- What a step left: outcome, `RESULT` and the bytes of the buffer. -/
def seen : Host.Outcome State Fault Refusal → Option (OutcomeCode × Word × List Byte)
  | .next t => some (t.outcome, t.result, t.buf.cells.map Prod.snd)
  | .fault _ => none
  | .refused _ => none

/-- What a step of `RUN` shows. -/
structure RunView where
  phase : Phase
  outcome : OutcomeCode
  frameCount : Word
  trim : Word
  cursor : Word
  bytes : List Byte
  deriving DecidableEq, Repr

/-- What a step of `RUN` left. -/
def seenRun : Host.Outcome State Fault Refusal → Option RunView
  | .next t => some
      ⟨t.phase, t.outcome, t.frameCount, t.trim, t.cursor, t.buf.cells.map Prod.snd⟩
  | .fault _ => none
  | .refused _ => none

/-- What a step left in `STATUS` and in the host's reply. -/
def seenHost : Host.Outcome State Fault Refusal → Option (Word × Option Word)
  | .next t => some (t.statusWord, t.reply)
  | .fault _ => none
  | .refused _ => none

/-! ### Well-formedness: each check refuses an ill-formed term -/

theorem test_reservedBitsZero_refuses : reservedBitsZero 0x00000123#32 = false := by decide
theorem test_reservedBitsZero_refuses_bit_31 : reservedBitsZero 0x80000001#32 = false := by decide
theorem test_opcodeAssigned_refuses : opcodeAssigned 0x00000004#32 = false := by decide
theorem test_legalCommandWord_refuses_reserved_bits : legalCommandWord 0x00000101#32 = false := by decide
theorem test_legalCommandWord_refuses_opcode : legalCommandWord 0x00000000#32 = false := by decide
theorem test_legalCommandWord_accepts : legalCommandWord 0x00000023#32 = true := by decide
theorem test_regAccess_refuses_width : regAccessWellFormed 16 0x00 = false := by decide
theorem test_regAccess_refuses_misaligned : regAccessWellFormed 32 0x02 = false := by decide
theorem test_regAccess_refuses_above : regAccessWellFormed 32 0x40 = false := by decide
theorem test_regAccess_accepts_last : regAccessWellFormed 32 0x3C = true := by decide
theorem test_memory_wf_refuses_unsorted :
    Memory.wf { cells := [(1, 0x00#8), (0, 0x00#8)], draw := 0 } = false := by decide

/-! ### Decoding: words written out bit by bit from the opcode map of spec/30_encoding.md R71 -/

theorem test_decode_getBit : decode 0b00000000000000000000000000000001#32 = .ok .getBit := by rfl
theorem test_decode_setBit : decode 0b00000000000000000000000000000010#32 = .ok .setBit := by rfl
theorem test_decode_setByteAtBit :
    decode 0b00000000000000000000000000000011#32 = .ok .setByteAtBit := by rfl
theorem test_decode_crcTable : decode 0b00000000000000000000000000010000#32 = .ok .crcTable := by rfl
theorem test_decode_crcByte : decode 0b00000000000000000000000000010001#32 = .ok .crcByte := by rfl
theorem test_decode_crcCompute :
    decode 0b00000000000000000000000000010010#32 = .ok .crcCompute := by rfl
theorem test_decode_syncFind : decode 0b00000000000000000000000000100000#32 = .ok .syncFind := by rfl
theorem test_decode_lenDecode : decode 0b00000000000000000000000000100001#32 = .ok .lenDecode := by rfl
theorem test_decode_framePatch :
    decode 0b00000000000000000000000000100010#32 = .ok .framePatch := by rfl
theorem test_decode_run : decode 0b00000000000000000000000000100011#32 = .ok .run := by rfl

/-- The illegal words of spec/95 section 2.5. -/
theorem test_decode_illegal :
    [0x00000000#32, 0x00000004#32, 0x00000024#32, 0x000000FF#32, 0x00000123#32, 0x80000001#32].map
      (fun w => decodeTableWord 32 w.toNat) = [none, none, none, none, none, none] := by decide

/-- The first step after reset runs the word placed: `CRC_TABLE` with `B = 0` reads entry 0. -/
theorem test_withFetchWord_runs : seen (step (State.reset.withFetchWord 32 0x10)) =
    some (.ok, 0x00000000#32, []) := by decide +kernel

/-! ### The field mutator (spec/95 section 2.1) -/

theorem test_getBit :
    [0, 1, 7, 14, 15, 16, 23, 24, 0xFFFFFFFF].map (fun a : Word =>
      seen (step (ready .getBit a 0#32 0#32 [0x80, 0x01, 0xA5]))) =
    [1, 0, 0, 0, 1, 1, 1, 0, 0].map (fun r : Word => some (.ok, r, [0x80, 0x01, 0xA5])) := by
  decide +kernel

theorem test_setBit :
    seen (step (ready .setBit 5#32 1#32 0#32 [0x00])) = some (.ok, 0#32, [0x04]) ∧
    seen (step (ready .setBit 3#32 0#32 0#32 [0x5A])) = some (.ok, 0#32, [0x4A]) ∧
    seen (step (ready .setBit 0#32 2#32 0#32 [0x00])) = some (.ok, 0#32, [0x00]) ∧
    seen (step (ready .setBit 15#32 1#32 0#32 [0x00, 0x00])) = some (.ok, 0#32, [0x00, 0x01]) := by
  decide +kernel

/-- The byte at `Lc` exists and is out of range. -/
theorem test_setBit_past_length : seen (step { ready .setBit 8#32 1#32 0#32 [0x00, 0x00] with lc := 1#32 })
    = some (.ok, 0#32, [0x00, 0x00]) := by decide +kernel

theorem test_setByteAtBit :
    seen (step (ready .setByteAtBit 11#32 0x00#32 0#32 [0xFF, 0xFF, 0xFF])) =
      some (.ok, 0#32, [0xFF, 0xE0, 0x1F]) ∧
    seen (step (ready .setByteAtBit 15#32 0xA5#32 0#32 [0x00, 0x00, 0x00])) =
      some (.ok, 0#32, [0x00, 0x01, 0x4A]) ∧
    seen (step (ready .setByteAtBit 0#32 0x1A5#32 0#32 [0x00, 0x00])) =
      some (.ok, 0#32, [0xA5, 0x00]) := by decide +kernel

/-- At the tail: the aligned last byte is replaced, the straddling write skipped whole. -/
theorem test_setByteAtBit_tail :
    seen (step (ready .setByteAtBit 16#32 0xFF#32 0#32 [0x12, 0x34, 0x56])) =
      some (.ok, 0#32, [0x12, 0x34, 0xFF]) ∧
    seen (step (ready .setByteAtBit 17#32 0xFF#32 0#32 [0x12, 0x34, 0x56])) =
      some (.ok, 0#32, [0x12, 0x34, 0x56]) := by decide +kernel

/-! ### The CRC-16 engine (spec/95 section 2.2) -/

/-- The table listed under R120 of spec/41_crc_engine.md. -/
def specTable : List Crc :=
  [0x0000, 0x8005, 0x800F, 0x000A, 0x801B, 0x001E, 0x0014, 0x8011,
    0x8033, 0x0036, 0x003C, 0x8039, 0x0028, 0x802D, 0x8027, 0x0022] ++
  [0x8063, 0x0066, 0x006C, 0x8069, 0x0078, 0x807D, 0x8077, 0x0072,
    0x0050, 0x8055, 0x805F, 0x005A, 0x804B, 0x004E, 0x0044, 0x8041] ++
  [0x80C3, 0x00C6, 0x00CC, 0x80C9, 0x00D8, 0x80DD, 0x80D7, 0x00D2,
    0x00F0, 0x80F5, 0x80FF, 0x00FA, 0x80EB, 0x00EE, 0x00E4, 0x80E1] ++
  [0x00A0, 0x80A5, 0x80AF, 0x00AA, 0x80BB, 0x00BE, 0x00B4, 0x80B1,
    0x8093, 0x0096, 0x009C, 0x8099, 0x0088, 0x808D, 0x8087, 0x0082] ++
  [0x8183, 0x0186, 0x018C, 0x8189, 0x0198, 0x819D, 0x8197, 0x0192,
    0x01B0, 0x81B5, 0x81BF, 0x01BA, 0x81AB, 0x01AE, 0x01A4, 0x81A1] ++
  [0x01E0, 0x81E5, 0x81EF, 0x01EA, 0x81FB, 0x01FE, 0x01F4, 0x81F1,
    0x81D3, 0x01D6, 0x01DC, 0x81D9, 0x01C8, 0x81CD, 0x81C7, 0x01C2] ++
  [0x0140, 0x8145, 0x814F, 0x014A, 0x815B, 0x015E, 0x0154, 0x8151,
    0x8173, 0x0176, 0x017C, 0x8179, 0x0168, 0x816D, 0x8167, 0x0162] ++
  [0x8123, 0x0126, 0x012C, 0x8129, 0x0138, 0x813D, 0x8137, 0x0132,
    0x0110, 0x8115, 0x811F, 0x011A, 0x810B, 0x010E, 0x0104, 0x8101] ++
  [0x8303, 0x0306, 0x030C, 0x8309, 0x0318, 0x831D, 0x8317, 0x0312,
    0x0330, 0x8335, 0x833F, 0x033A, 0x832B, 0x032E, 0x0324, 0x8321] ++
  [0x0360, 0x8365, 0x836F, 0x036A, 0x837B, 0x037E, 0x0374, 0x8371,
    0x8353, 0x0356, 0x035C, 0x8359, 0x0348, 0x834D, 0x8347, 0x0342] ++
  [0x03C0, 0x83C5, 0x83CF, 0x03CA, 0x83DB, 0x03DE, 0x03D4, 0x83D1,
    0x83F3, 0x03F6, 0x03FC, 0x83F9, 0x03E8, 0x83ED, 0x83E7, 0x03E2] ++
  [0x83A3, 0x03A6, 0x03AC, 0x83A9, 0x03B8, 0x83BD, 0x83B7, 0x03B2,
    0x0390, 0x8395, 0x839F, 0x039A, 0x838B, 0x038E, 0x0384, 0x8381] ++
  [0x0280, 0x8285, 0x828F, 0x028A, 0x829B, 0x029E, 0x0294, 0x8291,
    0x82B3, 0x02B6, 0x02BC, 0x82B9, 0x02A8, 0x82AD, 0x82A7, 0x02A2] ++
  [0x82E3, 0x02E6, 0x02EC, 0x82E9, 0x02F8, 0x82FD, 0x82F7, 0x02F2,
    0x02D0, 0x82D5, 0x82DF, 0x02DA, 0x82CB, 0x02CE, 0x02C4, 0x82C1] ++
  [0x8243, 0x0246, 0x024C, 0x8249, 0x0258, 0x825D, 0x8257, 0x0252,
    0x0270, 0x8275, 0x827F, 0x027A, 0x826B, 0x026E, 0x0264, 0x8261] ++
  [0x0220, 0x8225, 0x822F, 0x022A, 0x823B, 0x023E, 0x0234, 0x8231,
    0x8213, 0x0216, 0x021C, 0x8219, 0x0208, 0x820D, 0x8207, 0x0202]

theorem test_crc_table_listing :
    (List.range 256).map (fun v => crcTableEntry (BitVec.ofNat 8 v)) = specTable := by decide +kernel

theorem test_crcTable : [0x01, 0x55, 0x80, 0xFF, 0x101].map (fun b : Word =>
      seen (step (ready .crcTable 0#32 b 0#32 []))) =
    [0x8005, 0x01FE, 0x8303, 0x0202, 0x8005].map (fun r : Word => some (.ok, r, [])) := by
  decide +kernel

theorem test_crcByte :
    [(0x1234, 0x56), (0xFFFF, 0x00), (0xFFFF, 0xFF), (0x8005, 0x80), (0xBEEF, 0x42)].map
      (fun p : Word × Word => seen (step (ready .crcByte 0#32 p.2 p.1 []))) =
    [0x3598, 0xFD02, 0xFF00, 0x0500, 0xED08].map (fun r : Word => some (.ok, r, [])) := by
  decide +kernel

theorem test_crcCompute :
    [(0, 9, 0), (3, 9, 0), (0, 9, 0xFFFF), (9, 9, 0x1234), (5, 2, 0xABCD), (0, 100, 0)].map
      (fun p : Word × Word × Word => seen (step (ready .crcCompute p.1 p.2.1 p.2.2
        [0x31, 0x32, 0x33, 0x34, 0x35, 0x36, 0x37, 0x38, 0x39]))) =
    [0xFEE8, 0xC21D, 0xAEE7, 0x1234, 0xABCD, 0xFEE8].map (fun r : Word => some
      (.ok, r, [0x31, 0x32, 0x33, 0x34, 0x35, 0x36, 0x37, 0x38, 0x39])) := by decide +kernel

/-! ### The frame scanner (spec/95 sections 1, 2.3 and 2.4) -/

theorem test_syncFind :
    [(0, 0), (3, 0), (3, 3), (3, 4), (6, 0), (0, 3), (0, 4), (5, 2), (5, 1)].map
      (fun p : Word × Word => seen (step (ready .syncFind p.1 p.2 0#32
        [0xAA, 0x0B, 0x0B, 0x77, 0x00, 0x0B, 0x77]))) =
    [(.ok, 2), (.ok, 5), (.notFound, 0xFFFFFFFF), (.ok, 5), (.notFound, 0xFFFFFFFF),
      (.notFound, 0xFFFFFFFF), (.ok, 2), (.ok, 5), (.notFound, 0xFFFFFFFF)].map
      (fun p : OutcomeCode × Word => some
        (p.1, p.2, [0xAA, 0x0B, 0x0B, 0x77, 0x00, 0x0B, 0x77])) := by decide +kernel

theorem test_lenDecode :
    [[0x0B, 0x77, 0x00, 0x04], [0x0B, 0x77, 0xFF, 0xFF], [0x0B, 0x77, 0xF8, 0x00],
      [0x0B, 0x77, 0x01, 0x00], [0x0B, 0x77, 0x05]].map
      (fun m : List Byte => (seen (step (ready .lenDecode 0#32 0#32 0#32 m))).map (·.2.1)) =
    [10, 4096, 2, 514, 2562].map (fun r : Word => some r) := by decide +kernel

theorem test_framePatch :
    seen (step (ready .framePatch 0#32 0#32 0#32
      [0x0B, 0x77, 0x00, 0x05, 0x20, 0x21, 0x22, 0x23, 0x24, 0x25, 0x26, 0x27])) = some
      (.ok, 0x60CE000C, [0x0B, 0x77, 0x00, 0x05, 0x20, 0x21, 0x22, 0x25, 0xA0, 0x01, 0x60, 0xCE]) ∧
    seen (step (ready .framePatch 0#32 0#32 0#32
      [0x0B, 0x77, 0x00, 0x04, 0xFF, 0xFF, 0xFF, 0xFF, 0xFF, 0xFF])) = some
      (.ok, 0x81C5000A, [0x0B, 0x77, 0x00, 0x04, 0xFF, 0xFF, 0xFF, 0xFD, 0x81, 0xC5]) := by
  decide +kernel

/-- A truncated frame, and the half-written channel map at `Lc = 9`. -/
theorem test_framePatch_tail :
    seen (step (ready .framePatch 0#32 0#32 0#32
      [0x0B, 0x77, 0x00, 0x04, 0x00, 0x00, 0x00, 0x00, 0x00])) = some
      (.truncated, 0x0000000A, [0x0B, 0x77, 0x00, 0x04, 0x00, 0x00, 0x00, 0x00, 0x00]) ∧
    seen (step (ready .framePatch 0#32 0#32 0#32
      [0x0B, 0x77, 0x00, 0x02, 0x11, 0x11, 0x11, 0x11, 0x11])) = some
      (.ok, 0x800F0006, [0x0B, 0x77, 0x00, 0x02, 0x80, 0x0F, 0x11, 0x15, 0xA1]) := by decide +kernel

/-- E7's input: the seek step finds the marker at 5; without a marker it completes (V-RUN-01). -/
theorem test_run_seek :
    seenRun (step (ready .run 0#32 0#32 0#32
      [0xAA, 0xAA, 0xAA, 0xAA, 0xAA, 0x0B, 0x77, 0x00, 0x04])) = some
      ⟨.runLoop, .ok, 0, 5, 0, [0xAA, 0xAA, 0xAA, 0xAA, 0xAA, 0x0B, 0x77, 0x00, 0x04]⟩ ∧
    seenRun (step (ready .run 0#32 0#32 0#32 [0xAA, 0xBB, 0xCC, 0x77, 0x0B])) = some
      ⟨.idle, .noSync, 0, 0, 0, [0xAA, 0xBB, 0xCC, 0x77, 0x0B]⟩ := by decide +kernel

/-- E7's one patched frame, and V-RUN-14's first frame, whose mutation reaches the next frame. -/
theorem test_run_iteration :
    seenRun (step (looping 5#32 0#32 [0xAA, 0xAA, 0xAA, 0xAA, 0xAA,
      0x0B, 0x77, 0x00, 0x04, 0x00, 0x00, 0x00, 0x00, 0x00, 0x00])) = some
      ⟨.runLoop, .ok, 1, 5, 10, [0xAA, 0xAA, 0xAA, 0xAA, 0xAA,
        0x0B, 0x77, 0x00, 0x04, 0x00, 0x00, 0x00, 0x05, 0x81, 0xFD]⟩ ∧
    seenRun (step (looping 1#32 0#32
      [0xF1, 0x0B, 0x77, 0x58, 0x01, 0x0B, 0x77, 0xE0, 0x02, 0xCF, 0xC5])) = some
      ⟨.runLoop, .ok, 1, 1, 4,
        [0xF1, 0x0B, 0x77, 0x00, 0x00, 0x0B, 0x77, 0xE0, 0x05, 0xA0, 0x01]⟩ := by decide +kernel

/-! ### The interface (spec/95 section 2.5) -/

/-- After reset, with `BUF_CAP = 64`: `ID`, `CAP`, `CMD`, a reserved offset and `STATUS`. -/
theorem test_reset_reads : [0x00, 0x2C, 0x04, 0x30, 0x08].map (fun off =>
      seenHost (step (idle [] [.host (.regRead 32 off)]))) =
    [0x4C433136, 0x00000040, 0, 0, 0].map (fun r : Word => some (0#32, some r)) := by decide +kernel

/-- `LEN` clamps to the capacity. -/
theorem test_len_clamps :
    ((idle [] []).writeReg 0x0C 1000#32).len = 64#32 ∧ ((idle [] []).writeReg 0x0C 5#32).len = 5#32 := by
  decide

/-- Illegal words: `STATUS` right after the write, and after the engine's step. -/
theorem test_illegal_status :
    [0x00000000, 0x00000024, 0x00000123, 0x80000001].map (fun v : Word =>
      ((idle [] []).writeReg 0x04 v).statusWord) =
      [0x00000001#32, 0x00002401#32, 0x00002301#32, 0x00000101#32] ∧
    [0x00000000, 0x00000024, 0x00000123, 0x80000001].map (fun v : Word =>
      seenHost (step ((idle [] []).writeReg 0x04 v))) =
      [0x00000052, 0x00002452, 0x00002352, 0x00000152].map (fun r : Word => some (r, none)) := by
  decide +kernel

/-- Protocol violations: a dropped command, a refused buffer read, the sticky bits cleared by name. -/
theorem test_stickies :
    seenHost (step { ready .run 0#32 0#32 0#32 [0x0B, 0x77] with
      agenda := [.host (.regWrite 32 0x04 1#32)] }) = some (0x00012301#32, none) ∧
    seenHost (step { ready .run 0#32 0#32 0#32 [0x0B, 0x77] with
      agenda := [.host (.bufRead 0)], cmdOverrun := true }) = some (0x00032301#32, some 0#32) ∧
    (({ idle [] [] with cmdOverrun := true, bufConflict := true }).writeReg 0x08 0x0002FFFF#32).statusWord
      = 0x00010000#32 := by decide +kernel

/-- A byte that nothing has written since power-on reads as the free value. -/
theorem test_unwritten_byte_is_free : (idle [0x00] []).buf.read 1 = Config.powerOnByte 0 1 := by rfl

/-- `load` past the 32-bit range carries the low 32 bits of its end (notes/assumptions/19.md). -/
theorem test_load_end_wraps : (HostLine.load 0xFFFFFFFF [0x0B, 0x77]).expand.getLast? =
    some (.host (.regWrite 32 0x0C 0x00000001#32)) := by decide

/-- A write keeps the addresses rising. -/
theorem test_write_keeps_order :
    (((idle [] []).buf.write 5 0x55#8).write 2 0x22#8).cells = [(2, 0x22#8), (5, 0x55#8)] := by decide

/-! ### Witnesses: a concrete state and operands meeting all hypotheses of each statement that has any -/

/-- The mid-pass state of the test `test_run_iteration`. -/
def midPass : State := looping 5#32 0#32 [0xAA, 0xAA, 0xAA, 0xAA, 0xAA,
  0x0B, 0x77, 0x00, 0x04, 0x00, 0x00, 0x00, 0x00, 0x00, 0x00]

theorem witness_StepRunsDecodedCommand :
    (ready .crcByte 0#32 0#32 0#32 []).phase = .exec ∧
    decode (ready .crcByte 0#32 0#32 0#32 []).cw = .ok .crcByte ∧
    (ready .crcByte 0#32 0#32 0#32 []).agenda = [] ∧
    ({ ready .crcByte 0#32 0#32 0#32 [] with agenda := [.engine, .wait] } : State).agenda =
      .engine :: [.wait] := ⟨rfl, rfl, rfl, rfl⟩

theorem witness_EngineStepInEachPhase :
    ((idle [] []).agenda = [] ∧ (idle [] []).phase = .idle) ∧
    (midPass.agenda = [] ∧ midPass.phase = .runLoop) ∧
    (({ ready .run 0#32 0#32 0#32 [] with cw := 0x123#32 } : State).agenda = [] ∧
      ({ ready .run 0#32 0#32 0#32 [] with cw := 0x123#32 } : State).phase = .exec ∧
      legalCommandWord ({ ready .run 0#32 0#32 0#32 [] with cw := 0x123#32 } : State).cw = false) := by
  decide

theorem witness_FetchedWordRunsNext : decode (BitVec.ofNat 32 0x22) = .ok .framePatch := by rfl

theorem witness_CommandWriteAcceptedOrDropped : midPass.busy = true ∧ (idle [] []).busy = false := by
  decide

theorem witness_RegisterReadReturnsItsContent :
    (0x00 % 4 = 0 ∧ 0x00 ≤ 0x3C) ∧ 0x3C % 4 = 0 ∧ 0x3C ≤ 0x3C := by decide

theorem witness_RegisterWriteEffects :
    0x00 ∈ [0x00, 0x1C, 0x20, 0x24, 0x28, 0x2C, 0x30, 0x34, 0x38, 0x3C] ∧
    0x3C ∈ [0x00, 0x1C, 0x20, 0x24, 0x28, 0x2C, 0x30, 0x34, 0x38, 0x3C] := by decide

theorem witness_RegisterAccessRefusedOutsideInterface :
    ¬(31 = 32 ∧ 0x3C % 4 = 0 ∧ 0x3C ≤ 0x3C) ∧ ¬(32 = 32 ∧ 0x3B % 4 = 0 ∧ 0x3B ≤ 0x3C) ∧
    ¬(32 = 32 ∧ 0x40 % 4 = 0 ∧ 0x40 ≤ 0x3C) ∧ (32 = 32 ∧ 0x3C % 4 = 0 ∧ 0x3C ≤ 0x3C) := by decide

/-- The last address of the buffer and the first past it. -/
theorem witness_HostBufferTransaction :
    midPass.busy = true ∧ ((idle [] []).busy = false ∧ (idle [] []).cap ≤ 64) ∧
    (idle [] []).busy = false ∧ 63 < (idle [] []).cap := by decide

theorem witness_HostReadAfterWriteSeesByte :
    (idle [] [.host (.bufWrite 63 0x1A5#32), .host (.bufRead 63), .wait]).busy = false ∧
    63 < (idle [] [.host (.bufWrite 63 0x1A5#32), .host (.bufRead 63), .wait]).cap ∧
    (idle [] [.host (.bufWrite 63 0x1A5#32), .host (.bufRead 63), .wait]).agenda =
      .host (.bufWrite 63 0x1A5#32) :: .host (.bufRead 63) :: [.wait] := by decide

theorem witness_WaitPollsUntilNotBusy :
    ((idle [] [.wait]).agenda = .wait :: [] ∧ (idle [] [.wait]).busy = false) ∧
    ({ midPass with agenda := [.wait] } : State).agenda = .wait :: [] ∧
    ({ midPass with agenda := [.wait] } : State).busy = true := by decide

/-- Two bytes that end at the capacity, no byte at all, and `clr`. -/
theorem witness_LoadStoresBytesAndLength :
    ((idle [] (HostLine.load 62 [0x0B, 0x77]).expand).busy = false ∧
      62 + [0x0B#8, 0x77#8].length ≤ (idle [] (HostLine.load 62 [0x0B, 0x77]).expand).cap ∧
      (idle [] (HostLine.load 62 [0x0B, 0x77]).expand).cap ≤ 2 ^ 29 ∧
      (idle [] (HostLine.load 62 [0x0B, 0x77]).expand).agenda = (HostLine.load 62 [0x0B, 0x77]).expand) ∧
    (64 + ([] : List Byte).length ≤ (idle [] (HostLine.load 64 []).expand).cap ∧
      (idle [] (HostLine.load 64 []).expand).agenda = (HostLine.load 64 []).expand) ∧
    (idle [] HostLine.clr.expand).agenda = HostLine.clr.expand := by decide

theorem witness_ResetEventLeavesResetValues :
    ({ midPass with agenda := [.reset, .wait] } : State).agenda = .reset :: [.wait] := rfl

theorem witness_PowerOnDrawsEveryByte :
    ({ midPass with agenda := [.powerOn] } : State).agenda = .powerOn :: [] := rfl

/-- The invariant holds in the middle of a pass, and a step goes on from there. -/
theorem witness_StepKeepsMachineInvariant : Inv midPass ∧ ∃ t, step midPass = .next t :=
  ⟨by constructor <;> decide, _, rfl⟩

/-- A next move inside with one outside after it, no move at all, a next move outside, and a host whose
moves are all inside. -/
theorem witness_StepNeverStopsInsideInterface :
    nextInside (idle [] [.host (.regRead 32 0x3C), .host (.regRead 32 0x40)]) = true ∧
    nextInside (idle [] []) = true ∧
    nextInside (idle [] [.host (.regWrite 32 0x3E 0#32)]) = false ∧
    (agendaInside (idle [] [.engine, .wait, .reset, .powerOn, .host (.regRead 32 0x3C),
        .host (.regWrite 32 0x00 0#32), .host (.bufRead 64), .host (.bufWrite 64 0#32)]) = true ∧
      ∃ t, step (idle [] [.engine, .wait, .reset, .powerOn, .host (.regRead 32 0x3C),
        .host (.regWrite 32 0x00 0#32), .host (.bufRead 64), .host (.bufWrite 64 0#32)]) = .next t) :=
  ⟨by decide, by decide, by decide, by decide, _, rfl⟩

theorem witness_CanonicalBufferIsUnique :
    midPass.buf.wf = true ∧ midPass.buf.draw = midPass.buf.draw ∧
    ∀ x, lookupCell midPass.buf.cells x = lookupCell midPass.buf.cells x := ⟨by decide, rfl, fun _ => rfl⟩

/-- The last aligned byte, and the last straddling write. -/
theorem witness_FieldReadsWhatWasWritten :
    (if 8 % 8 = 0 then 8 / 8 < 2 else 8 / 8 + 1 < 2) ∧
    (if 7 % 8 = 0 then 7 / 8 < 2 else 7 / 8 + 1 < 2) ∧ 15 / 8 < 2 := by decide

theorem witness_SetByteAtBitIsEightSetBits :
    (if 8 % 8 = 0 then 8 / 8 < 2 else 8 / 8 + 1 < 2) ∧
    (if 7 % 8 = 0 then 7 / 8 < 2 else 7 / 8 + 1 < 2) ∧ 15 % 8 ≠ 0 ∧ 15 / 8 + 1 = 2 ∧
    ∃ m' : Memory, m' = (List.range 8).foldl
      (fun acc j => acc.setBit 2 (BitVec.ofBool ((0xA5#8).getLsbD (7 - j))) (15 + j)) midPass.buf :=
  ⟨by decide, by decide, by decide, by decide, _, rfl⟩

/-- `CRC_COMPUTE` over nine bytes. -/
def nineBytes : State := ready .crcCompute 0#32 9#32 0#32 [1, 2, 3, 4, 5, 6, 7, 8, 9]

/-- A cut at the end of the range, and the three commands. -/
theorem witness_CrcResumesAcrossACut :
    nineBytes.a.toNat ≤ (9#32).toNat ∧
    (9#32).toNat ≤ nineBytes.b.toNat ∧
    nineBytes.b.toNat ≤
      nineBytes.lc.toNat ∧
    ∃ t1 t2 t : State,
      exec .crcCompute { nineBytes with b := 9#32 } =
        .next t1 ∧
      exec .crcCompute { nineBytes with
        a := 9#32, c := t1.result } = .next t2 ∧
      exec .crcCompute nineBytes = .next t :=
  ⟨by decide, by decide, by decide, _, _, _, rfl, rfl, rfl⟩

theorem witness_AppendedChecksumZeroesRemainder :
    (0xFEE8#16 = crcOf [0x31, 0x32, 0x33, 0x34, 0x35, 0x36, 0x37, 0x38, 0x39] 0#16) ∧
    4 ≤ 4 ∧ 60 + 4 ≤ 64 := by decide +kernel

/-- The buffer of the vectors of `SYNC_FIND`. -/
def syncBytes : List Byte := [0xAA, 0x0B, 0x0B, 0x77, 0x00, 0x0B, 0x77]

/-- The search in the window `[0, 4)`. -/
def window4 : State := ready .syncFind 0#32 4#32 0#32 syncBytes

/-- The search in the window `[0, 3)`. -/
def window3 : State := ready .syncFind 0#32 3#32 0#32 syncBytes

/-- The marker at 2 just inside the window `[0, 4)`, and just outside the window `[0, 3)`. -/
theorem witness_SyncFindAnswersFirstMarker :
    (4 = (if window4.b = 0#32 then
        window4.lc.toNat
        else min (window4.a.toNat +
          window4.b.toNat)
          window4.lc.toNat) ∧
      window4.a.toNat ≤ 2 ∧ 2 + 1 < 4 ∧
      window4.buf.read 2 = 0x0B#8 ∧
      window4.buf.read (2 + 1) = 0x77#8 ∧
      ∀ q, window4.a.toNat ≤ q → q < 2 →
        ¬(window4.buf.read q = 0x0B#8 ∧
          window4.buf.read (q + 1) = 0x77#8)) ∧
    3 = (if window3.b = 0#32 then
        window3.lc.toNat
        else min (window3.a.toNat +
          window3.b.toNat)
          window3.lc.toNat) ∧
      ∀ q, window3.a.toNat ≤ q → q + 1 < 3 →
        ¬(window3.buf.read q = 0x0B#8 ∧
          window3.buf.read (q + 1) = 0x77#8) := by
  refine ⟨⟨by decide, by decide, by decide, by decide, by decide, fun q _ h => ?_⟩, by decide,
    fun q _ h => ?_⟩
  · interval_cases q <;> decide
  · have h' : q < 2 := by omega
    interval_cases q <;> decide

theorem witness_FrameSizeIsElevenBitField : 0 + 3 < 4 := by decide

/-- An 8-byte frame whose buffer ends within its mutation: `Lc = 9`. -/
theorem witness_MutationBytesUpToTheTail :
    0 + (ready .framePatch 0#32 0#32 0#32 [0x0B, 0x77, 0x00, 0x03, 0x11, 0x11, 0x11, 0x11, 0x11]).buf.frameLength
      9 0 ≤ 9 ∧ 9 ≤ 0 + 9 := by decide

/-- A frame of `2 * fs + 2` bytes at the start of a 16-byte buffer (spec/95 section 1 E4). -/
def shortFrame (fs : Byte) : State := ready .framePatch 0#32 0#32 0#32
  ([0x0B, 0x77, 0x00, fs] ++ List.replicate 12 0x11#8)

/-- The same frame with `Lc` cut to `n`. -/
def cutFrame (fs : Byte) (n : Word) : State := { shortFrame fs with lc := n }

/-- Truncated by one byte, and an exact fit. -/
theorem witness_FramePatchPatchesOneFrame :
    (12 = (cutFrame 0x05 11#32).buf.frameLength (cutFrame 0x05 11#32).lc.toNat
        (cutFrame 0x05 11#32).a.toNat ∧
      (cutFrame 0x05 11#32).a.toNat + 12 > (cutFrame 0x05 11#32).lc.toNat) ∧
    12 = (cutFrame 0x05 12#32).buf.frameLength (cutFrame 0x05 12#32).lc.toNat
        (cutFrame 0x05 12#32).a.toNat ∧
      (cutFrame 0x05 12#32).a.toNat + 12 ≤ (cutFrame 0x05 12#32).lc.toNat := by decide

/-- A 12-byte frame by `FRAME_PATCH` and by `RUN`, and a 10-byte one. -/
theorem witness_PatchedFramePostconditions :
    (∃ t, exec .framePatch (shortFrame 0x05) = .next t ∧ t.outcome = .ok ∧
      12 ≤ (shortFrame 0x05).buf.frameLength (shortFrame 0x05).lc.toNat (shortFrame 0x05).a.toNat) ∧
    (∃ t, ({ shortFrame 0x05 with phase := .runLoop } : State).phase = .runLoop ∧
      exec .run { shortFrame 0x05 with phase := .runLoop } = .next t ∧
      t.frameCount ≠ (shortFrame 0x05).frameCount ∧
      12 ≤ (shortFrame 0x05).buf.frameLength (shortFrame 0x05).lc.toNat
        ((shortFrame 0x05).trim.toNat + (shortFrame 0x05).cursor.toNat)) ∧
    ∃ t, exec .framePatch (shortFrame 0x04) = .next t ∧ t.outcome = .ok ∧
      (shortFrame 0x04).buf.frameLength (shortFrame 0x04).lc.toNat (shortFrame 0x04).a.toNat = 10 := by
  refine ⟨⟨_, rfl, ?_, ?_⟩, ⟨_, rfl, rfl, ?_, ?_⟩, _, rfl, ?_, ?_⟩ <;> decide +kernel

/-- A patch of each short frame succeeds with the three mutated bytes in the buffer, also where the
buffer ends right after them. -/
theorem witness_ShortFramesOverwriteAsTabled :
    ∀ fs ∈ [(0x00#8, 2), (0x01#8, 4), (0x02#8, 6), (0x03#8, 8), (0x04#8, 10)],
      (∃ t, exec .framePatch (cutFrame fs.1 10#32) = .next t ∧ t.outcome = .ok) ∧
      (cutFrame fs.1 10#32).a.toNat + 10 ≤ (cutFrame fs.1 10#32).lc.toNat ∧
      (cutFrame fs.1 10#32).buf.frameLength (cutFrame fs.1 10#32).lc.toNat (cutFrame fs.1 10#32).a.toNat
        = fs.2 := by
  intro fs h
  simp only [List.mem_cons, List.not_mem_nil, or_false] at h
  rcases h with rfl | rfl | rfl | rfl | rfl <;>
    exact ⟨⟨_, rfl, by decide +kernel⟩, by decide, by decide +kernel⟩

/-- Both patches of a 6-byte frame and of a 4-byte frame that fits exactly. -/
theorem witness_FramePatchIsIdempotent :
    ((∃ t u, exec .framePatch (shortFrame 0x02) = .next t ∧ exec .framePatch t = .next u) ∧
      (shortFrame 0x02).buf.frameLength (shortFrame 0x02).lc.toNat (shortFrame 0x02).a.toNat ≠ 4) ∧
    (∃ t u, exec .framePatch (cutFrame 0x01 4#32) = .next t ∧ exec .framePatch t = .next u) ∧
      (cutFrame 0x01 4#32).buf.frameLength (cutFrame 0x01 4#32).lc.toNat (cutFrame 0x01 4#32).a.toNat = 4 ∧
      (cutFrame 0x01 4#32).a.toNat + 4 ≤ (cutFrame 0x01 4#32).lc.toNat :=
  ⟨⟨⟨_, _, rfl, rfl⟩, by decide⟩, ⟨_, _, rfl, rfl⟩, by decide, by decide⟩

/-- A marker in the last two bytes. -/
def lateMarker : State := ready .run 0#32 0#32 0#32 [0x77, 0x0B, 0x77]

/-- The marker's bytes reversed: no marker. -/
def reversed : State := ready .run 0#32 0#32 0#32 [0x77, 0x0B]

/-- The last position a marker can have, and no marker. -/
theorem witness_RunSeekTrimsToFirstMarker :
    (lateMarker.phase = .exec ∧
      1 + 1 < lateMarker.lc.toNat ∧
      lateMarker.buf.read 1 = 0x0B#8 ∧
      lateMarker.buf.read (1 + 1) = 0x77#8 ∧
      ∀ q, q < 1 → ¬(lateMarker.buf.read q = 0x0B#8 ∧
        lateMarker.buf.read (q + 1) = 0x77#8)) ∧
    reversed.phase = .exec ∧
      ∀ q, q + 1 < reversed.lc.toNat →
        ¬(reversed.buf.read q = 0x0B#8 ∧
          reversed.buf.read (q + 1) = 0x77#8) := by
  refine ⟨⟨rfl, by decide, by decide, by decide, fun q h => ?_⟩, rfl, fun q (h : q + 1 < 2) => ?_⟩
  · interval_cases q; decide
  · have h' : q < 1 := by omega
    interval_cases q; decide

/-- Four bytes left, a marker among them. -/
def fourLeft : State := looping 0#32 0#32 [0x0B, 0x77, 0x00, 0x01]

/-- Four bytes left: the pass is done. -/
theorem witness_RunIterationInOrderOfChecks_done : fourLeft.phase = .runLoop ∧
    fourLeft.lc.toNat -
      fourLeft.trim.toNat -
      fourLeft.cursor.toNat < 5 := by decide

/-- Five bytes left, the next marker in the last two. -/
def lostMarker : State := looping 0#32 0#32 [0xEE, 0xEE, 0xEE, 0x0B, 0x77]

/-- Five bytes left, no marker here, and the next marker in the last two bytes. -/
theorem witness_RunIterationInOrderOfChecks_resync :
    lostMarker.phase = .runLoop ∧ 5 ≤ lostMarker.lc.toNat -
      lostMarker.trim.toNat -
      lostMarker.cursor.toNat ∧
    ¬(lostMarker.buf.read 0 = 0x0B#8 ∧
      lostMarker.buf.read (0 + 1) = 0x77#8) ∧
    0 + 1 ≤ 3 ∧ 3 + 1 < min (0 + 1 + 4096) lostMarker.lc.toNat ∧
    lostMarker.buf.read 3 = 0x0B#8 ∧
    lostMarker.buf.read (3 + 1) = 0x77#8 ∧
    ∀ r, 0 + 1 ≤ r → r < 3 →
      ¬(lostMarker.buf.read r = 0x0B#8 ∧
        lostMarker.buf.read (r + 1) = 0x77#8) := by
  refine ⟨rfl, by decide, by decide, by decide, by decide, by decide, by decide, fun r h1 h2 => ?_⟩
  interval_cases r <;> decide

/-- Five bytes left and no marker. -/
def noMarker : State := looping 0#32 0#32 [0xEE, 0xEE, 0xEE, 0xEE, 0x0B]

/-- Five bytes left, and no marker in the window. -/
theorem witness_RunIterationInOrderOfChecks_exhausted :
    noMarker.phase = .runLoop ∧ 5 ≤ noMarker.lc.toNat -
      noMarker.trim.toNat -
      noMarker.cursor.toNat ∧
    ¬(noMarker.buf.read 0 = 0x0B#8 ∧
      noMarker.buf.read (0 + 1) = 0x77#8) ∧
    ∀ q, 0 + 1 ≤ q →
      q + 1 < min (0 + 1 + 4096) noMarker.lc.toNat →
      ¬(noMarker.buf.read q = 0x0B#8 ∧
        noMarker.buf.read (q + 1) = 0x77#8) := by
  refine ⟨rfl, by decide, by decide, fun q h1 (h2 : q + 1 < 5) => ?_⟩
  have h' : q < 4 := by omega
  interval_cases q <;> decide

/-- A frame of 10 bytes of which the buffer holds 9. -/
def oneShort : State := looping 0#32 0#32 ([0x0B, 0x77, 0x00, 0x04] ++ List.replicate 5 0x00#8)

/-- At a marker: a frame of 10 bytes with 9 left, and with 10 left. -/
theorem witness_RunIterationInOrderOfChecks_frame :
    (oneShort.phase = .runLoop ∧ 5 ≤ oneShort.lc.toNat -
        oneShort.trim.toNat -
        oneShort.cursor.toNat ∧
      oneShort.buf.read 0 = 0x0B#8 ∧
      oneShort.buf.read (0 + 1) = 0x77#8 ∧
      9 < 0 + oneShort.buf.frameLength 9 0) ∧
    midPass.phase = .runLoop ∧ 5 ≤ midPass.lc.toNat - midPass.trim.toNat - midPass.cursor.toNat ∧
    midPass.buf.read 5 = 0x0B#8 ∧ midPass.buf.read (5 + 1) = 0x77#8 ∧
    midPass.cursor.toNat + midPass.buf.frameLength midPass.lc.toNat 5 ≤
      midPass.lc.toNat - midPass.trim.toNat := by decide

theorem witness_RunCursorOnlyMovesForward :
    midPass.phase = .runLoop ∧ (∃ t, exec .run midPass = .next t ∧ t.phase ≠ .idle ∧
      t.frameCount ≠ midPass.frameCount) ∧
    midPass.cursor.toNat ≤ midPass.lc.toNat - midPass.trim.toNat ∧ 4 < midPass.trim.toNat := by
  refine ⟨rfl, ⟨_, rfl, ?_, ?_⟩, ?_, ?_⟩ <;> decide +kernel

/-- A trim of two bytes, and the copy moved to index 0. -/
theorem witness_RunInPlaceIsRunOnTrimmedCopy :
    ∃ s t : State, s.agenda = [] ∧ t.agenda = [] ∧ s.phase = .exec ∧ t.phase = .exec ∧
      s.cw = encode .run ∧ t.cw = encode .run ∧ s.buf.find s.lc.toNat 0 s.lc.toNat = some 2 ∧
      t.lc.toNat = s.lc.toNat - 2 ∧ (∀ x, x < t.lc.toNat → t.buf.read x = s.buf.read (2 + x)) ∧
      t.cursor = s.cursor ∧ t.frameCount = s.frameCount ∧ t.outcome = s.outcome ∧ t.result = s.result := by
  refine ⟨ready .run 0#32 0#32 0#32 [0xAA, 0xAA, 0x0B, 0x77, 0x00, 0x01],
    ready .run 0#32 0#32 0#32 [0x0B, 0x77, 0x00, 0x01], rfl, rfl, rfl, rfl, rfl, rfl, by decide, by decide,
    fun x (h : x < 4) => ?_, rfl, rfl, rfl, rfl⟩
  interval_cases x <;> rfl

theorem witness_EveryCommandCompletes :
    ((ready .run 0#32 0#32 0#32 []).agenda = [] ∧ (ready .run 0#32 0#32 0#32 []).phase = .exec) ∧
    (ready .getBit 0#32 0#32 0#32 []).cw ≠ encode .run := by decide

theorem witness_IllegalCommandHasNoOtherEffect :
    legalCommandWord 0x00000123#32 = false ∧
    (idle [] [.host (.regWrite 32 0x04 0x00000123#32)]).busy = false ∧
    (idle [] [.host (.regWrite 32 0x04 0x00000123#32)]).agenda =
      [.host (.regWrite 32 0x04 0x00000123#32)] := by decide

/-- Of each command, a step that answers a next state (for `OutcomesOfEachCommand` and
`EngineStepFrame`). -/
theorem witness_OutcomesOfEachCommand :
    ∀ i ∈ [Instr.getBit, .setBit, .setByteAtBit, .crcTable, .crcByte, .crcCompute, .syncFind, .lenDecode,
      .framePatch, .run], ∃ t, exec i (ready i 0#32 0#32 0#32 [0x0B, 0x77]) = .next t := by
  intro i h
  simp only [List.mem_cons, List.not_mem_nil, or_false] at h
  rcases h with rfl | rfl | rfl | rfl | rfl | rfl | rfl | rfl | rfl | rfl <;> exact ⟨_, rfl⟩

theorem witness_EngineStepFrame :
    Instr.getBit ≠ Instr.run ∧ Instr.setBit ∈ [Instr.setBit, .setByteAtBit] ∧
    Instr.lenDecode ∈ [Instr.getBit, .crcTable, .crcByte, .crcCompute, .syncFind, .lenDecode] := by decide

/-- A host write to `LEN` during a command, and two states that differ by it. -/
theorem witness_HostCannotDisturbCommandInProgress :
    (midPass.busy = true ∧ ∃ t, hostTransaction (.regWrite 32 0x0C 3#32) midPass = .next t) ∧
    sameEngine midPass { midPass with len := 3#32, argA := 7#32, bufConflict := true } ∧
    ∃ u, engineStep midPass = .next u := ⟨⟨rfl, _, rfl⟩, rfl, _, rfl⟩

/-- Two buffers that differ at the byte `Lc`. -/
theorem witness_EngineIgnoresBytesPastLength :
    (∀ x, x < (cutFrame 0x03 8#32).lc.toNat →
      ((cutFrame 0x03 8#32).buf.write 8 0x99#8).read x = (cutFrame 0x03 8#32).buf.read x) ∧
    ∃ t, exec .framePatch (cutFrame 0x03 8#32) = .next t := by
  refine ⟨fun x (h : x < 8) => ?_, _, rfl⟩
  interval_cases x <;> rfl

/-- A command in progress whose host polls next, and the lines of program P3 of spec/95. -/
theorem witness_WaitingHostMeetsNoHazard :
    (Orderly { midPass with agenda := [.wait] } ∧
      ∃ t, step { midPass with agenda := [.wait] } = .next t) ∧
    ∀ line ∈ [HostLine.load 0 [0x00, 0x00], .op .setBit (some 3#32) (some 1#32) none,
      .op .getBit (some 4#32) none none, .rd .result, .rb 1], lineWaits line = true :=
  ⟨⟨by constructor <;> decide, _, rfl⟩, by decide⟩

end Sys2Proof.Tests
end

section
/-! PROOFS. The register file's rules about `CMD` and `STATUS` (spec/10_state.md R26, R41). -/

namespace Sys2Proof.Machine

/-- A full-width write to an aligned register offset is inside the interface (R53), so it is the
register's own write. -/
theorem hostTransaction_regWrite (s : State) (off : Nat) (v : Word)
    (h : regAccessWellFormed 32 off = true) :
    hostTransaction (.regWrite 32 off v) s = .next (s.writeReg off v) := by
  simp only [hostTransaction, if_pos h]

theorem hostTransaction_writeCmd (s : State) (v : Word) :
    hostTransaction (.regWrite 32 0x04 v) s = .next (s.writeCmd v) :=
  hostTransaction_regWrite s 0x04 v (by decide)

theorem State.writeCmd_of_busy (s : State) (v : Word) (h : s.busy = true) :
    s.writeCmd v = s.setCmdOverrun := by
  simp only [State.writeCmd, h, if_true]

theorem State.writeCmd_of_idle (s : State) (v : Word) (h : s.busy = false) :
    s.writeCmd v = s.accept v := by
  simp only [State.writeCmd, h, Bool.false_eq_true, if_false]

/-- `STATUS` bit 0 is `BUSY` (R26). -/
theorem State.statusWord_getLsbD_zero (s : State) : s.statusWord.getLsbD 0 = s.busy := by
  rw [State.statusWord, BitVec.getLsbD_append]
  simp

/-- `STATUS` bit 1 is `DONE` (R26). -/
theorem State.statusWord_getLsbD_one (s : State) : s.statusWord.getLsbD 1 = s.done := by
  rw [State.statusWord, BitVec.getLsbD_append, BitVec.getLsbD_append]
  simp

/-- Settles O7: a write to `CMD` is `writeCmd`, whose busy case is `setCmdOverrun` and whose idle case
is `accept`; each is the state the rule writes out. -/
theorem commandWriteAcceptedOrDropped : Obligations.CommandWriteAcceptedOrDropped := by
  intro s v
  rw [hostTransaction_writeCmd]
  refine ⟨fun hbusy => ?dropped, fun hidle => ⟨s.accept v, ?accepted, rfl, ?busyBit, ?doneBit⟩⟩
  case dropped => rw [State.writeCmd_of_busy s v hbusy, State.setCmdOverrun]
  case accepted => rw [State.writeCmd_of_idle s v hidle]
  case busyBit => rw [State.statusWord_getLsbD_zero, State.accept_busy]
  case doneBit => rw [State.statusWord_getLsbD_one, State.accept_done]

end Sys2Proof.Machine
end

section
/-! PROOFS. The bits that the field mutator reads and writes, counted from the most significant of each
byte (spec/20_memory.md R54, spec/40_bit_accessor.md R100, R101). -/

namespace Sys2Proof.Machine

/-- `get_bit` in stream order: bit `o mod 8` from the most significant of byte `o div 8` (R100). -/
theorem Memory.getBit_eq (m : Memory) (lc o : Nat) :
    m.getBit lc o =
      if o / 8 < lc then BitVec.ofBool ((m.read (o / 8)).getMsbD (o % 8)) else 0#1 := by
  have hbit : o % 8 < 8 := Nat.mod_lt o (by decide)
  by_cases hin : o / 8 < lc
  · rw [Memory.getBit, if_neg (by omega), if_pos hin, BitVec.setWidth_one, BitVec.getLsbD_ushiftRight,
      BitVec.getMsbD_eq_getLsbD, Nat.add_zero, decide_eq_true hbit, Bool.true_and]
  · rw [Memory.getBit, if_pos (by omega), if_neg hin]

/-- The mask of `set_bit` has the one bit `k`, counted from the most significant (R101). -/
theorem getMsbD_bitMask {j k : Nat} (hj : j < 8) (hk : k < 8) :
    (1#8 <<< (7 - k)).getMsbD j = decide (j = k) := by
  rw [BitVec.getMsbD_shiftLeft, BitVec.getMsbD_one, decide_eq_true (by decide : 0 < 8), Bool.and_true]
  exact decide_eq_decide.mpr (by omega)

/-- A byte with the bit `k` of the mask set. -/
theorem getMsbD_or_bitMask (w : Byte) {j k : Nat} (hj : j < 8) (hk : k < 8) :
    (w ||| (1#8 <<< (7 - k))).getMsbD j = if j = k then true else w.getMsbD j := by
  rw [BitVec.getMsbD_or, getMsbD_bitMask hj hk]
  split <;> simp [*]

/-- A byte with the bit `k` of the mask cleared. -/
theorem getMsbD_and_not_bitMask (w : Byte) {j k : Nat} (hj : j < 8) (hk : k < 8) :
    (w &&& ~~~(1#8 <<< (7 - k))).getMsbD j = if j = k then false else w.getMsbD j := by
  rw [BitVec.getMsbD_and, BitVec.getMsbD_not, getMsbD_bitMask hj hk]
  split <;> simp [*]

/-- Every bit of every byte after `set_bit(v, o)`: stream bit `o` is `v` if its byte is in range, and
every other bit is as it was (R101). -/
theorem Memory.getMsbD_read_setBit (m : Memory) (lc : Nat) (v : BitVec 1) (o x : Nat) {j : Nat}
    (hj : j < 8) :
    ((m.setBit lc v o).read x).getMsbD j =
      if 8 * x + j = o ∧ x < lc then v.getLsbD 0 else (m.read x).getMsbD j := by
  have hk : o % 8 < 8 := Nat.mod_lt o (by decide)
  by_cases hbyte : x = o / 8 ∧ o / 8 < lc
  case neg =>
    rw [Memory.read_setBit, if_neg hbyte, if_neg (by omega)]
  case pos =>
    have hhit : (8 * x + j = o ∧ x < lc) = (j = o % 8) := by rw [eq_iff_iff]; omega
    rw [Memory.read_setBit, if_pos hbyte]
    simp only [hhit]
    obtain rfl | rfl := BitVec.eq_zero_or_eq_one v
    case inl => rw [if_neg (by decide), getMsbD_and_not_bitMask _ hj hk]; rfl
    case inr => rw [if_pos rfl, getMsbD_or_bitMask _ hj hk]; rfl

/-- One engine step of `GET_BIT` (R100). -/
theorem exec_getBit (s : State) : exec .getBit s =
    .next ((s.setResult ((s.buf.getBit s.opLc s.opBitOffset).setWidth 32)).complete .ok) := rfl

/-- One engine step of `SET_BIT` (R101). -/
theorem exec_setBit (s : State) : exec .setBit s =
    .next (State.complete { s with buf := s.buf.setBit s.opLc s.opBitValue s.opBitOffset } .ok) := rfl

/-- Settles O22: `RESULT` is `get_bit` of the latched operands, in stream order. -/
theorem getBitReadsAddressedBit : Obligations.GetBitReadsAddressedBit := by
  refine ⟨rfl, fun s => ?_⟩
  rw [exec_getBit, State.opLc_eq, State.opBitOffset_eq, Memory.getBit_eq]
  by_cases hin : s.a.toNat / 8 < s.lc.toNat
  · rw [if_pos hin, if_pos hin]; rfl
  · rw [if_neg hin, if_neg hin]; rfl

/-- Settles O23: the buffer after the step is `set_bit` of the latched operands, read bit by bit. -/
theorem setBitChangesOneBit : Obligations.SetBitChangesOneBit := by
  refine ⟨rfl, fun s => ⟨s.buf.setBit s.opLc s.opBitValue s.opBitOffset, exec_setBit s, ?_⟩⟩
  intro x j hj
  have hvalue : s.opBitValue.getLsbD 0 = s.b.getLsbD 0 := by
    rw [State.opBitValue_eq, BitVec.getLsbD_extractLsb']; simp
  rw [Memory.getMsbD_read_setBit _ _ _ _ _ hj, hvalue]

end Sys2Proof.Machine
end

section
/-! PROOFS. The CRC-16 engine's update by the fields of its operands, and its range function as one fold
(spec/41_crc_engine.md R121, R122, R124, R125). -/

namespace Sys2Proof.Machine

/-- `RESULT` holds a CRC value in its lower half, below a zero upper half. -/
theorem setWidth_crc_eq_append (c : Crc) : c.setWidth 32 = 0#16 ++ c :=
  BitVec.setWidth_eq_append (by decide)

/-- `crc_step` by the two bytes of the running value: the upper one goes into the table's index, the
lower one moves up by 8 (R121). -/
theorem crcStep_eq (c : Crc) (b : Byte) :
    crcStep c b = crcTableEntry (b ^^^ c.extractLsb' 8 8) ^^^ (c.extractLsb' 0 8 ++ 0#8) := by
  have hupper : (c >>> 8).setWidth 8 = c.extractLsb' 8 8 := BitVec.setWidth_ushiftRight_eq_extractLsb
  have hlower : c <<< 8 = c.extractLsb' 0 8 ++ 0#8 := BitVec.shiftLeft_eq_concat_of_lt (by decide)
  rw [crcStep, hupper, hlower]

/-- `Compute` is the left fold of `crc_step` (R122). -/
theorem crcOf_eq_foldl (bytes : List Byte) (init : Crc) : crcOf bytes init = bytes.foldl crcStep init := by
  induction bytes generalizing init with
  | nil => rfl
  | cons b rest ih => rw [crcOf, ih, List.foldl_cons]

/-- The bytes of a range are the reads at its addresses, in rising order. -/
theorem Memory.bytes_eq_map_read (m : Memory) (a n : Nat) :
    m.bytes a n = (List.range' a n).map m.read := by
  induction n generalizing a with
  | zero => rfl
  | succ n ih => rw [Memory.bytes, ih, List.range'_succ, List.map_cons]

/-- The CRC of a range as one fold over its positions; an empty or inverted range has none (R125). -/
theorem Memory.crcRange_eq_foldl (m : Memory) (first last : Nat) (init : Crc) :
    m.crcRange first last init =
      ((List.range' first (last - first)).map m.read).foldl crcStep init := by
  obtain hrange | hempty := Nat.lt_or_ge first last
  case inl => rw [m.crcRange_fold init hrange, crcOf_eq_foldl, Memory.bytes_eq_map_read]
  case inr => rw [m.crcRange_empty init hempty, Nat.sub_eq_zero_of_le hempty]; rfl

/-- One engine step of `CRC_BYTE` (R124). -/
theorem exec_crcByte (s : State) : exec .crcByte s =
    .next ((s.setResult ((crcStep s.opCrc s.opByteValue).setWidth 32)).complete .ok) := rfl

/-- One engine step of `CRC_COMPUTE` (R125). -/
theorem exec_crcCompute (s : State) : exec .crcCompute s =
    .next ((s.setResult ((s.buf.crcRange s.opByteIndex (min s.opEndIndex s.opLc) s.opCrc).setWidth
      32)).complete .ok) := rfl

/-- Settles O29: `RESULT` is `crc_step` of the latched operands, whose running value's two bytes are
those of `C[15:0]`. -/
theorem crcByteAppliesOneUpdate : Obligations.CrcByteAppliesOneUpdate := by
  refine ⟨rfl, fun s => ?_⟩
  have hupper : s.opCrc.extractLsb' 8 8 = s.c.extractLsb' 8 8 :=
    BitVec.extractLsb'_extractLsb'_of_le (by decide)
  have hlower : s.opCrc.extractLsb' 0 8 = s.c.extractLsb' 0 8 :=
    BitVec.extractLsb'_extractLsb'_of_le (by decide)
  rw [exec_crcByte, setWidth_crc_eq_append, crcStep_eq, hupper, hlower, State.opByteValue_eq]
  rfl

/-- Settles O30: `RESULT` is the CRC of the range from `A` to `min(B, Lc)`, read as one fold. -/
theorem crcComputeFoldsTheRange : Obligations.CrcComputeFoldsTheRange := by
  refine ⟨rfl, fun s => ?_⟩
  rw [exec_crcCompute, setWidth_crc_eq_append, Memory.crcRange_eq_foldl, State.opByteIndex_eq,
    State.opEndIndex_eq, State.opLc_eq, State.opCrc_eq]
  rfl

end Sys2Proof.Machine
end

section
/-! PROOFS. The marker search in terms of the two marker bytes, and the two commands that begin with a
search: `SYNC_FIND` from `A`, and the seek step of `RUN` from byte 0 (spec/42_frame_scanner.md R140, R141,
R146, R150). -/

namespace Sys2Proof.Machine

/-- Where both bytes are in the buffer, a marker is its two bytes (R140). -/
theorem Memory.marker_iff_bytes (m : Memory) {lc a : Nat} (hin : a + 1 < lc) :
    m.marker lc a = true ↔ m.read a = 0x0B#8 ∧ m.read (a + 1) = 0x77#8 := by
  rw [Memory.marker_iff]
  exact and_iff_right hin

theorem Memory.marker_eq_false_iff_bytes (m : Memory) {lc a : Nat} (hin : a + 1 < lc) :
    m.marker lc a = false ↔ ¬(m.read a = 0x0B#8 ∧ m.read (a + 1) = 0x77#8) := by
  rw [← m.marker_iff_bytes hin, Bool.not_eq_true]

/-- In a window inside the buffer `find` answers the smallest position of the two marker bytes (R141). -/
theorem Memory.find_eq_some_iff_bytes (m : Memory) {lc a lim p : Nat} (hlim : lim ≤ lc) :
    m.find lc a lim = some p ↔
      a ≤ p ∧ p + 1 < lim ∧ (m.read p = 0x0B#8 ∧ m.read (p + 1) = 0x77#8) ∧
      ∀ q, a ≤ q → q < p → ¬(m.read q = 0x0B#8 ∧ m.read (q + 1) = 0x77#8) := by
  rw [Memory.find_some]
  refine and_congr_right fun _ => and_congr_right fun hp => and_congr ?_ ?_
  · exact m.marker_iff_bytes (by omega)
  · exact forall₃_congr fun q _ hq => m.marker_eq_false_iff_bytes (by omega)

/-- In a window inside the buffer `find` answers none where no position has the two marker bytes (R141). -/
theorem Memory.find_eq_none_iff_bytes (m : Memory) {lc a lim : Nat} (hlim : lim ≤ lc) :
    m.find lc a lim = none ↔
      ∀ q, a ≤ q → q + 1 < lim → ¬(m.read q = 0x0B#8 ∧ m.read (q + 1) = 0x77#8) := by
  rw [Memory.find_none]
  exact forall₃_congr fun q _ hq => m.marker_eq_false_iff_bytes (by omega)

/-- The end of `SYNC_FIND`'s window: `Lc` for a window of 0 bytes, and never past `Lc` (R146). -/
def State.searchLimit (s : State) : Nat :=
  if s.b = 0#32 then s.lc.toNat else min (s.a.toNat + s.b.toNat) s.lc.toNat

theorem State.searchLimit_le (s : State) : s.searchLimit ≤ s.lc.toNat := by
  rw [State.searchLimit]
  split
  · exact Nat.le_refl _
  · exact Nat.min_le_right _ _

/-- The model tests the window as a number, the rule as a word. -/
theorem State.searchLimit_eq (s : State) : s.searchLimit =
    if s.opWindow = 0 then s.opLc else min (s.opByteIndex + s.opWindow) s.opLc := by
  have hzero : s.b = 0#32 ↔ s.b.toNat = 0 := BitVec.toNat_inj.symm
  simp only [State.searchLimit, hzero]

/-- One engine step of `SYNC_FIND` that finds a marker (R146). -/
theorem exec_syncFind_found (s : State) {p : Nat}
    (h : s.buf.find s.lc.toNat s.a.toNat s.searchLimit = some p) :
    exec .syncFind s = .next ((s.setResult (BitVec.ofNat 32 p)).complete .ok) := by
  rw [State.searchLimit_eq] at h
  simp only [exec, execSyncFind, h]

/-- One engine step of `SYNC_FIND` that finds none (R146). -/
theorem exec_syncFind_notFound (s : State)
    (h : s.buf.find s.lc.toNat s.a.toNat s.searchLimit = none) :
    exec .syncFind s = .next ((s.setResult 0xFFFFFFFF#32).complete .notFound) := by
  rw [State.searchLimit_eq] at h
  simp only [exec, execSyncFind, h]

/-- Settles O34: the window ends at `searchLimit`, inside the buffer, where `find` is the search for
the two marker bytes. -/
theorem syncFindAnswersFirstMarker : Obligations.SyncFindAnswersFirstMarker := by
  refine ⟨rfl, fun s lim hlim => ?_⟩
  obtain rfl : lim = s.searchLimit := hlim
  have hle : s.searchLimit ≤ s.lc.toNat := s.searchLimit_le
  refine ⟨fun p hap hplim hhi hlo hfirst => ?found, fun hnone => ?notFound⟩
  case found =>
    exact exec_syncFind_found s
      ((s.buf.find_eq_some_iff_bytes hle).mpr ⟨hap, hplim, ⟨hhi, hlo⟩, hfirst⟩)
  case notFound => exact exec_syncFind_notFound s ((s.buf.find_eq_none_iff_bytes hle).mpr hnone)

/-- The engine step of `RUN` in EXEC is the seek step (R149). -/
theorem exec_run_of_exec (s : State) (h : s.phase = .exec) : exec .run s = .next (runSeek s) := by
  simp only [exec, execRun, h]

/-- The seek step that finds a marker (R150). -/
theorem runSeek_found (s : State) {k : Nat} (h : s.buf.find s.opLc 0 s.opLc = some k) :
    runSeek s = { s with trim := BitVec.ofNat 32 k, phase := .runLoop } := by
  simpa [h] using runSeek_cases s

/-- The seek step that finds none (R150). -/
theorem runSeek_noSync (s : State) (h : s.buf.find s.opLc 0 s.opLc = none) :
    runSeek s = (s.setResult 0#32).complete .noSync := by
  simpa [h] using runSeek_cases s

/-- Settles O42: the seek step searches the whole buffer from byte 0 for the two marker bytes. -/
theorem runSeekTrimsToFirstMarker : Obligations.RunSeekTrimsToFirstMarker := by
  refine ⟨rfl, fun s hphase => ?_⟩
  have hle : s.opLc ≤ s.opLc := Nat.le_refl _
  rw [exec_run_of_exec s hphase]
  refine ⟨fun k hk hhi hlo hfirst => ?found, fun hnone => ?noSync⟩
  case found =>
    rw [runSeek_found s ((s.buf.find_eq_some_iff_bytes hle).mpr
      ⟨Nat.zero_le k, hk, ⟨hhi, hlo⟩, fun q _ => hfirst q⟩)]
  case noSync =>
    rw [runSeek_noSync s ((s.buf.find_eq_none_iff_bytes hle).mpr fun q _ => hnone q)]
    rfl

end Sys2Proof.Machine
end

section
/-! PROOFS. The frame length from its two size bytes, and the bytes of a frame's patch: `LEN_DECODE` and
`FRAME_PATCH` (spec/42_frame_scanner.md R142 to R148). -/

namespace Sys2Proof.Machine

/-- `rd0` as a number. -/
theorem Memory.toNat_rd0 (m : Memory) (lc a : Nat) :
    (m.rd0 lc a).toNat = if a < lc then (m.read a).toNat else 0 := by
  rw [Memory.rd0]
  split <;> rfl

/-- The frame-size field as a number: the low 3 bits of the first size byte, times 256, plus the second
(R142). -/
theorem Memory.toNat_frmsiz (m : Memory) (lc start : Nat) :
    (m.frmsiz lc start).toNat =
      (m.rd0 lc (start + 2)).toNat % 8 * 256 + (m.rd0 lc (start + 3)).toNat := by
  have hlow : ((m.rd0 lc (start + 2)).extractLsb' 0 3).toNat = (m.rd0 lc (start + 2)).toNat % 8 := by
    rw [BitVec.extractLsb'_toNat, Nat.shiftRight_zero]
  rw [Memory.frmsiz, BitVec.toNat_append, hlow,
    ← Nat.shiftLeft_add_eq_or_of_lt (m.rd0 lc (start + 3)).isLt, Nat.shiftLeft_eq]

/-- The frame length by the two size bytes, each 0 at or past `Lc` (R143). -/
theorem Memory.frameLength_eq (m : Memory) (lc start : Nat) :
    m.frameLength lc start =
      2 * ((if start + 2 < lc then (m.read (start + 2)).toNat % 8 else 0) * 256
        + (if start + 3 < lc then (m.read (start + 3)).toNat else 0)) + 2 := by
  have hhigh : (m.rd0 lc (start + 2)).toNat % 8 =
      if start + 2 < lc then (m.read (start + 2)).toNat % 8 else 0 := by
    rw [Memory.toNat_rd0]
    split <;> rfl
  rw [Memory.frameLength, Memory.toNat_frmsiz, hhigh, Memory.toNat_rd0]

/-- One engine step of `LEN_DECODE` (R147). -/
theorem exec_lenDecode (s : State) : exec .lenDecode s = .next
    ((s.setResult (BitVec.ofNat 32 (s.buf.frameLength s.opLc s.opByteIndex))).complete .ok) := rfl

/-- Settles O36: `RESULT` is the frame length at `A`, by its two size bytes and its bounds. -/
theorem lenDecodeComputesFrameLength : Obligations.LenDecodeComputesFrameLength := by
  refine ⟨rfl, fun s => ⟨s.buf.frameLength s.lc.toNat s.a.toNat, ?_⟩⟩
  obtain ⟨hlower, hupper⟩ := s.buf.frameLength_bounds s.lc.toNat s.a.toNat
  exact ⟨s.buf.frameLength_eq _ _, s.buf.frameLength_even _ _, hlower, hupper, exec_lenDecode s⟩

/-- A frame's patch leaves, byte by byte, the checksum it returns, the mutation's bytes and the rest
(R144, R145, R148). -/
theorem Memory.patchFrame_patchedBytes (m : Memory) (lc start fl : Nat) (hfl : 2 ≤ fl) :
    Safety.PatchedBytes m (m.patchFrame lc start fl) lc start fl (m.patchCrc lc start fl) := by
  refine ⟨rfl, fun x => ?_⟩
  rw [Memory.patchFrame, Memory.read_writeChecksum]
  by_cases hhigh : x = start + fl - 2
  case pos =>
    rw [if_neg (by omega), if_pos hhigh, if_pos hhigh]
    rfl
  case neg =>
    rw [if_neg hhigh, if_neg hhigh]
    by_cases hlow : x = start + fl - 1
    case pos =>
      rw [if_pos hlow, if_pos hlow]
      rfl
    case neg =>
      rw [if_neg hlow, if_neg hlow]
      by_cases hmut : start + 7 ≤ x ∧ x < start + 10
      case pos => rw [if_pos hmut]
      case neg => rw [if_neg hmut, Memory.read_mutate_other _ _ _ _ (by omega)]

/-- One engine step of `FRAME_PATCH` on a frame that ends past `Lc` (R148). -/
theorem exec_framePatch_truncated (s : State) {fl : Nat}
    (hfl : fl = s.buf.frameLength s.opLc s.opByteIndex) (h : s.opByteIndex + fl > s.opLc) :
    exec .framePatch s =
      .next ((s.setResult (0#16 ++ BitVec.ofNat 16 fl)).complete .truncated) := by
  subst hfl
  simp only [exec, execFramePatch, if_pos h]

/-- One engine step of `FRAME_PATCH` on a frame inside the buffer (R148). -/
theorem exec_framePatch_patched (s : State) {fl : Nat}
    (hfl : fl = s.buf.frameLength s.opLc s.opByteIndex) (h : s.opByteIndex + fl ≤ s.opLc) :
    exec .framePatch s =
      .next ((State.setResult { s with buf := s.buf.patchFrame s.opLc s.opByteIndex fl }
        (s.buf.patchCrc s.opLc s.opByteIndex fl ++ BitVec.ofNat 16 fl)).complete .ok) := by
  subst hfl
  simp only [exec, execFramePatch, if_neg (Nat.not_lt.mpr h)]

/-- Settles O38: the step's two cases, and the bytes that the patch leaves. -/
theorem framePatchPatchesOneFrame : Obligations.FramePatchPatchesOneFrame := by
  refine ⟨rfl, fun s fl hfl => ⟨fun hpast => ?truncated, fun hin => ?patched⟩⟩
  case truncated => exact exec_framePatch_truncated s hfl hpast
  case patched =>
    have htwo : 2 ≤ fl := hfl ▸ (s.buf.frameLength_bounds s.lc.toNat s.a.toNat).1
    exact ⟨s.buf.patchFrame s.lc.toNat s.a.toNat fl, s.buf.patchCrc s.lc.toNat s.a.toNat fl,
      exec_framePatch_patched s hfl hin, s.buf.patchFrame_patchedBytes _ _ _ htwo⟩

end Sys2Proof.Machine
end

section
/-! PROOFS. One loop iteration of `RUN`, an equation for each of its five ways on: the one case of
`runIteration_cases` that the checks leave (spec/42_frame_scanner.md R151). -/

namespace Sys2Proof.Machine

/-- The engine step of `RUN` in RUN_LOOP is one iteration (R149). -/
theorem exec_run_of_runLoop (s : State) (h : s.phase = .runLoop) :
    exec .run s = .next (runIteration s) := by
  simp only [exec, execRun, h]

/-- Fewer than 5 bytes remain. -/
theorem runIteration_done (s : State) (hend : s.runLength - s.cursor.toNat < 5) :
    runIteration s = (s.setResult s.frameCount).complete .ok := by
  simpa only [hend, Nat.not_le.mpr hend, true_and, false_and, or_false]
    using runIteration_cases s

section
variable (s : State) (hmore : 5 ≤ s.runLength - s.cursor.toNat)
include hmore

/-- No marker at the cursor, and one in the window: the cursor moves to it. -/
theorem runIteration_resync (hlost : s.buf.marker s.opLc s.runPosition = false) {p : Nat}
    (hfind : s.buf.find s.opLc (s.runPosition + 1) (min (s.runPosition + 1 + 4096) s.opLc) = some p) :
    runIteration s = { s with cursor := BitVec.ofNat 32 (p - s.trim.toNat) } := by
  simpa [hmore, Nat.not_lt.mpr hmore, hlost, hfind] using runIteration_cases s

/-- No marker at the cursor, and none in the window. -/
theorem runIteration_exhausted (hlost : s.buf.marker s.opLc s.runPosition = false)
    (hfind : s.buf.find s.opLc (s.runPosition + 1) (min (s.runPosition + 1 + 4096) s.opLc) = none) :
    runIteration s = (s.setResult s.frameCount).complete .resyncExhausted := by
  simpa [hmore, Nat.not_lt.mpr hmore, hlost, hfind] using runIteration_cases s

/-- A marker at the cursor, of a frame that ends past the trimmed buffer. -/
theorem runIteration_truncated (hmark : s.buf.marker s.opLc s.runPosition = true)
    (hpast : s.runLength < s.cursor.toNat + s.buf.frameLength s.opLc s.runPosition) :
    runIteration s = (s.setResult s.frameCount).complete .truncated := by
  simpa [hmore, Nat.not_lt.mpr hmore, hmark, hpast, Nat.not_le.mpr hpast] using runIteration_cases s

/-- A marker at the cursor, of a frame inside the trimmed buffer. -/
theorem runIteration_patched (hmark : s.buf.marker s.opLc s.runPosition = true)
    (hin : s.cursor.toNat + s.buf.frameLength s.opLc s.runPosition ≤ s.runLength) :
    runIteration s = { s with
      buf := s.buf.patchFrame s.opLc s.runPosition (s.buf.frameLength s.opLc s.runPosition)
      frameCount := s.frameCount + 1#32
      cursor := BitVec.ofNat 32 (s.cursor.toNat + s.buf.frameLength s.opLc s.runPosition) } := by
  simpa [hmore, Nat.not_lt.mpr hmore, hmark, hin, Nat.not_lt.mpr hin] using runIteration_cases s

end

/-- Where 5 bytes remain, the cursor's two marker bytes are in the buffer. -/
theorem State.runPosition_succ_lt (s : State) (hmore : 5 ≤ s.runLength - s.cursor.toNat) :
    s.runPosition + 1 < s.opLc := by
  rw [State.runLength_eq] at hmore
  rw [State.runPosition_eq, State.opLc_eq]
  omega

/-- Settles O43: the checks in their order, each clause by its equation of the iteration; the two marker
bytes stand for a marker because 5 bytes remain, and for a search because its window ends by `Lc`. -/
theorem runIterationInOrderOfChecks : Obligations.RunIterationInOrderOfChecks := by
  rintro s _ _ _ _ _ hphase rfl rfl rfl rfl rfl
  have hwin : min (s.runPosition + 1 + 4096) s.opLc ≤ s.opLc := Nat.min_le_right _ _
  rw [exec_run_of_runLoop s hphase]
  refine ⟨fun hend => ?done, fun hmore hlost => ?lost, fun hmore hhi hlo => ?frame⟩
  case done => rw [runIteration_done s hend]; rfl
  case lost =>
    have hmarker : s.buf.marker s.opLc s.runPosition = false :=
      (s.buf.marker_eq_false_iff_bytes (s.runPosition_succ_lt hmore)).mpr hlost
    refine ⟨fun q hpq hq hhi hlo hfirst => ?resync, fun hnone => ?exhausted⟩
    case resync =>
      rw [runIteration_resync s hmore hmarker
        ((s.buf.find_eq_some_iff_bytes hwin).mpr ⟨hpq, hq, ⟨hhi, hlo⟩, hfirst⟩)]
    case exhausted =>
      rw [runIteration_exhausted s hmore hmarker ((s.buf.find_eq_none_iff_bytes hwin).mpr hnone)]
      rfl
  case frame =>
    have hmarker : s.buf.marker s.opLc s.runPosition = true :=
      (s.buf.marker_iff_bytes (s.runPosition_succ_lt hmore)).mpr ⟨hhi, hlo⟩
    refine ⟨fun hpast => ?truncated, fun hin => ?patched⟩
    case truncated => rw [runIteration_truncated s hmore hmarker hpast]; rfl
    case patched =>
      have htwo : 2 ≤ s.buf.frameLength s.opLc s.runPosition := (s.buf.frameLength_bounds _ _).1
      exact ⟨_, _, congrArg Host.Outcome.next (runIteration_patched s hmore hmarker hin),
        s.buf.patchFrame_patchedBytes _ _ _ htwo⟩

end Sys2Proof.Machine
end

section
/-! PROOFS. The decoder against the encoder (spec/30_encoding.md R70, R71, R74, R76): a word is its reserved
bits and its opcode, and the opcode map lists each command under the opcode of its own word. -/

namespace Sys2Proof

/-- `OP`, bits 7:0 of a command's word (R70). -/
def Instr.opcode (i : Instr) : BitVec 8 := (encode i).extractLsb' 0 8

/-- A command's word is its opcode under 24 zero bits (R70, R71). -/
theorem encode_eq_append (i : Instr) : encode i = 0#24 ++ i.opcode := by
  cases i <;> rfl

/-- A word is its reserved bits followed by its opcode (R70). -/
theorem word_eq_append (w : Word) : w = w.extractLsb' 8 24 ++ w.extractLsb' 0 8 := by
  have hjoin : w.extractLsb' 8 24 ++ w.extractLsb' 0 8 = w.extractLsb' 0 (24 + 8) :=
    BitVec.extractLsb'_append_extractLsb'_eq_extractLsb' rfl
  rw [hjoin, BitVec.extractLsb'_eq_self]

/-- A word is a command's exactly when its reserved bits are zero and its opcode is the command's. -/
theorem eq_encode_iff (w : Word) (i : Instr) :
    w = encode i ↔ w.extractLsb' 8 24 = 0#24 ∧ w.extractLsb' 0 8 = i.opcode := by
  constructor
  · rintro rfl
    exact ⟨by cases i <;> rfl, rfl⟩
  · rintro ⟨hreserved, hopcode⟩
    rw [word_eq_append w, hreserved, hopcode, encode_eq_append]

/-- Every entry of the opcode map stands under its command's own opcode (R71). -/
theorem opcodeMap_fst_eq : ∀ entry ∈ opcodeMap, entry.1 = entry.2.opcode := by decide

theorem opcodeMap_lookup_opcode (i : Instr) : opcodeMap.lookup i.opcode = some i := by
  cases i <;> rfl

/-- The opcode map finds a command under its own opcode and under no other. -/
theorem opcodeMap_lookup_eq_some_iff (op : BitVec 8) (i : Instr) :
    opcodeMap.lookup op = some i ↔ op = i.opcode := by
  constructor
  · intro hfound
    obtain ⟨before, after, hmap, -⟩ := List.lookup_eq_some_iff.mp hfound
    exact opcodeMap_fst_eq (op, i) (by rw [hmap]; simp)
  · rintro rfl
    exact opcodeMap_lookup_opcode i

theorem opcodeMap_lookup_eq_none_iff (op : BitVec 8) :
    opcodeMap.lookup op = none ↔ ∀ i : Instr, op ≠ i.opcode := by
  simp only [Option.eq_none_iff_forall_ne_some, ne_eq, opcodeMap_lookup_eq_some_iff]

/-- The decoder on a word with a reserved bit set (R74). -/
theorem decode_of_reserved (w : Word) (h : w.extractLsb' 8 24 ≠ 0#24) :
    decode w = .error .reservedBits := by
  rw [decode, if_pos h]

/-- The decoder on a word whose opcode is the command `i`'s (R76). -/
theorem decode_of_opcode (w : Word) (i : Instr) (h : w.extractLsb' 8 24 = 0#24)
    (hop : w.extractLsb' 0 8 = i.opcode) : decode w = .ok i := by
  simp only [decode, h, hop, opcodeMap_lookup_opcode, ne_eq, not_true_eq_false, if_false]

/-- The decoder on a word whose opcode is no command's (R74). -/
theorem decode_of_unassigned (w : Word) (h : w.extractLsb' 8 24 = 0#24)
    (hop : ∀ i : Instr, w.extractLsb' 0 8 ≠ i.opcode) : decode w = .error .unassignedOpcode := by
  simp only [decode, h, (opcodeMap_lookup_eq_none_iff _).mpr hop, ne_eq, not_true_eq_false, if_false]

/-- What the decoder answers, said once: each answer with the words that get it. -/
theorem decode_cases (w : Word) :
    (w.extractLsb' 8 24 ≠ 0#24 ∧ decode w = .error .reservedBits) ∨
    (w.extractLsb' 8 24 = 0#24 ∧ (∀ i : Instr, w.extractLsb' 0 8 ≠ i.opcode) ∧
      decode w = .error .unassignedOpcode) ∨
    ∃ i, w = encode i ∧ decode w = .ok i := by
  by_cases hreserved : w.extractLsb' 8 24 = 0#24
  case neg => exact .inl ⟨hreserved, decode_of_reserved w hreserved⟩
  case pos =>
    by_cases hassigned : ∃ i : Instr, w.extractLsb' 0 8 = i.opcode
    case pos =>
      obtain ⟨i, hi⟩ := hassigned
      exact .inr (.inr ⟨i, (eq_encode_iff w i).mpr ⟨hreserved, hi⟩, decode_of_opcode w i hreserved hi⟩)
    case neg =>
      rw [not_exists] at hassigned
      exact .inr (.inl ⟨hreserved, hassigned, decode_of_unassigned w hreserved hassigned⟩)

@[simp] theorem decode_encode (i : Instr) : decode (encode i) = .ok i := by
  cases i <;> rfl

/-- A word decodes to a command exactly when it is the command's word (R76). -/
theorem decode_eq_ok_iff (w : Word) (i : Instr) : decode w = .ok i ↔ w = encode i := by
  constructor
  · intro hok
    obtain ⟨-, herr⟩ | ⟨-, -, herr⟩ | ⟨j, hw, hj⟩ := decode_cases w
    · rw [herr] at hok; cases hok
    · rw [herr] at hok; cases hok
    · rw [hj] at hok
      cases hok
      exact hw
  · rintro rfl
    exact decode_encode i

/-- A 32-bit table word is the word itself. -/
@[simp] theorem tableWord_toNat (w : Word) : tableWord 32 w.toNat = w := by
  rw [tableWord, Nat.mod_eq_of_lt w.isLt, BitVec.ofNat_toNat, BitVec.setWidth_eq]

theorem decodeTableWord_toNat (w : Word) : decodeTableWord 32 w.toNat = (decode w).toOption := by
  rw [decodeTableWord, if_pos (Nat.le_refl 32), tableWord_toNat]

/-- Settles O1: the decoder answers a command only for its own word, and the table form is the decoder
on the same word. -/
theorem decodeAndEncodeAgree : Obligations.DecodeAndEncodeAgree := by
  intro w i
  have htable : decodeTableWord 32 w.toNat = some i ↔ decode w = .ok i := by
    rw [decodeTableWord_toNat]
    cases decode w <;> simp [Except.toOption]
  exact ⟨decode_eq_ok_iff w i, htable.trans (decode_eq_ok_iff w i)⟩

theorem decode_eq_reservedBits_iff (w : Word) :
    decode w = .error .reservedBits ↔ w.extractLsb' 8 24 ≠ 0#24 := by
  obtain ⟨h, herr⟩ | ⟨h, -, herr⟩ | ⟨i, rfl, hok⟩ := decode_cases w
  · simp [h, herr]
  · simp [h, herr]
  · simp [((eq_encode_iff (encode i) i).mp rfl).1]

theorem decode_eq_unassignedOpcode_iff (w : Word) :
    decode w = .error .unassignedOpcode ↔
      w.extractLsb' 8 24 = 0#24 ∧ ∀ i : Instr, w.extractLsb' 0 8 ≠ i.opcode := by
  obtain ⟨h, herr⟩ | ⟨h, hop, herr⟩ | ⟨i, rfl, hok⟩ := decode_cases w
  · simp [h, herr]
  · simp [h, hop, herr]
  · rw [hok]
    exact iff_of_false (by simp) fun ⟨_, hnone⟩ => hnone i rfl

theorem opcodeAssigned_iff (w : Word) :
    opcodeAssigned w = true ↔ ∃ i : Instr, w.extractLsb' 0 8 = i.opcode := by
  rw [opcodeAssigned, List.contains_iff_mem]
  constructor
  · have hlisted : ∀ op ∈ [0x01#8, 0x02#8, 0x03#8, 0x10#8, 0x11#8, 0x12#8, 0x20#8, 0x21#8, 0x22#8,
        0x23#8], op ∈ opcodeMap.map Prod.fst := by decide
    intro hmem
    obtain ⟨entry, hentry, hop⟩ := List.mem_map.mp (hlisted _ hmem)
    exact ⟨entry.2, by rw [← hop, opcodeMap_fst_eq entry hentry]⟩
  · rintro ⟨i, hi⟩
    rw [hi]
    cases i <;> decide

/-- The legal words are the commands' words (R71). -/
theorem legalCommandWord_iff (w : Word) : legalCommandWord w = true ↔ ∃ i : Instr, w = encode i := by
  simp only [legalCommandWord, reservedBitsZero, Bool.and_eq_true, beq_iff_eq, opcodeAssigned_iff,
    eq_encode_iff, exists_and_left]

/-- An illegal word is rejected by the decoder (R74). -/
theorem decode_of_illegal (w : Word) (h : legalCommandWord w = false) : ∃ e, decode w = .error e := by
  obtain ⟨-, herr⟩ | ⟨-, -, herr⟩ | ⟨i, hw, -⟩ := decode_cases w
  · exact ⟨_, herr⟩
  · exact ⟨_, herr⟩
  · exact absurd ((legalCommandWord_iff w).mpr ⟨i, hw⟩) (by simp [h])

/-- Settles O2: the three answers of `decode_cases`, each with the words that get it. -/
theorem decodeRejectsByName : Obligations.DecodeRejectsByName := fun w =>
  ⟨decode_eq_reservedBits_iff w, decode_eq_unassignedOpcode_iff w, legalCommandWord_iff w⟩

/-- Settles O3: the five command words are those of the map's commands; the other four are rejected by
their opcode or by their reserved bits. -/
theorem writtenOutWordsDecode : Obligations.WrittenOutWordsDecode :=
  ⟨decode_encode .getBit, decode_encode .setByteAtBit, decode_encode .crcCompute,
    decode_encode .syncFind, decode_encode .run, rfl, rfl,
    decode_of_reserved _ (by decide), decode_of_reserved _ (by decide)⟩

end Sys2Proof
end

section
/-! PROOFS. What one engine step of a command can do, said once: it answers a next state, which is the
command complete or `RUN` in its loop, and it writes the buffer only below the latched length
(spec/10_state.md R42, spec/30_encoding.md R72, spec/60_exceptions.md R181, R182). -/

namespace Sys2Proof.Machine

/-- The buffer `m'` is `m` after some writes, each below `lc` (spec/20_memory.md R50). -/
inductive Memory.WritesBelow (lc : Nat) (m : Memory) : Memory → Prop
  | refl : WritesBelow lc m m
  | write {m' : Memory} (a : Nat) (v : Byte) :
      WritesBelow lc m m' → a < lc → WritesBelow lc m (m'.write a v)

namespace Memory.WritesBelow
variable {lc : Nat} {m m' m'' : Memory}

theorem trans (h : WritesBelow lc m m') (h' : WritesBelow lc m' m'') : WritesBelow lc m m'' := by
  induction h' with
  | refl => exact h
  | write a v _ ha ih => exact .write a v ih ha

/-- Bytes at or past `lc` keep their values. -/
theorem read_past (h : WritesBelow lc m m') {x : Nat} (hx : lc ≤ x) : m'.read x = m.read x := by
  induction h with
  | refl => rfl
  | write a v _ ha ih => rw [Memory.read_write_other _ _ (by omega), ih]

theorem wf (h : WritesBelow lc m m') (hwf : m.wf = true) : m'.wf = true := by
  induction h with
  | refl => exact hwf
  | write a v _ _ ih => exact Memory.write_wf _ _ _ ih

theorem within (h : WritesBelow lc m m') {cap : Nat} (hcap : lc ≤ cap) (hin : m.within cap = true) :
    m'.within cap = true := by
  induction h with
  | refl => exact hin
  | write a v _ ha ih => exact Memory.write_within _ _ ih (by omega)

end Memory.WritesBelow

theorem Memory.setBit_writesBelow (m : Memory) (lc : Nat) (v : BitVec 1) (o : Nat) :
    m.WritesBelow lc (m.setBit lc v o) := by
  obtain h | ⟨w, hin, h⟩ := m.setBit_cases lc v o <;> rw [h]
  · exact .refl
  · exact .write _ _ .refl hin

theorem Memory.setByteAtBit_writesBelow (m : Memory) (lc : Nat) (v : Byte) (o : Nat) :
    m.WritesBelow lc (m.setByteAtBit lc v o) := by
  obtain h | ⟨hin, h⟩ | ⟨w, w', hin, h⟩ := m.setByteAtBit_cases lc v o <;> rw [h]
  · exact .refl
  · exact .write _ _ .refl hin
  · exact .write _ _ (.write _ _ .refl (by omega)) hin

theorem Memory.mutate_writesBelow (m : Memory) (lc start : Nat) :
    m.WritesBelow lc (m.mutate lc start) := by
  rw [Memory.mutate]
  refine .trans (.trans ?_ (Memory.setByteAtBit_writesBelow _ _ _ _))
    (Memory.setByteAtBit_writesBelow _ _ _ _)
  split
  · exact m.setBit_writesBelow _ _ _
  · exact .refl

theorem Memory.patchFrame_writesBelow (m : Memory) {lc start fl : Nat} (hfl : 2 ≤ fl)
    (hin : start + fl ≤ lc) : m.WritesBelow lc (m.patchFrame lc start fl) := by
  rw [Memory.patchFrame, Memory.writeChecksum]
  exact .write _ _ (.write _ _ (m.mutate_writesBelow lc start) (by omega)) (by omega)

end Sys2Proof.Machine

namespace Sys2Proof

/-- The outcomes that the operand table lists for a command (spec/30_encoding.md R72). -/
def Instr.outcomes : Instr → List Machine.OutcomeCode
  | .getBit => [.ok]
  | .setBit => [.ok]
  | .setByteAtBit => [.ok]
  | .crcTable => [.ok]
  | .crcByte => [.ok]
  | .crcCompute => [.ok]
  | .syncFind => [.ok, .notFound]
  | .lenDecode => [.ok]
  | .framePatch => [.ok, .truncated]
  | .run => [.ok, .noSync, .truncated, .resyncExhausted]

/-- The commands that may write `RESULT` (R72). -/
def Instr.writesResult (i : Instr) : Bool := i ∉ [Instr.setBit, .setByteAtBit]

/-- The commands that may write `BUF` (R72). -/
def Instr.writesBuffer (i : Instr) : Bool := i ∈ [Instr.setBit, .setByteAtBit, .framePatch, .run]

end Sys2Proof

namespace Sys2Proof.Machine

/-- The step from `s` to `t` completes the command `i`: beside the completion, only `BUF` and `RESULT`
may differ, and those only where the command writes them (R72, R181). -/
structure Completes (i : Instr) (s t : State) : Prop where
  state : t = State.complete { s with buf := t.buf, result := t.result } t.outcome
  outcome : t.outcome ∈ i.outcomes
  buffer : s.buf.WritesBelow s.lc.toNat t.buf
  keepsResult : i.writesResult = false → t.result = s.result
  keepsBuffer : i.writesBuffer = false → t.buf = s.buf

/-- The step from `s` to `t` leaves a pass in its loop (spec/42_frame_scanner.md R150, R151). -/
structure Loops (s t : State) : Prop where
  state : t = { s with
    frameCount := t.frameCount, trim := t.trim, cursor := t.cursor, buf := t.buf, phase := .runLoop }
  buffer : s.buf.WritesBelow s.lc.toNat t.buf

/-- One engine step of `SET_BYTE_AT_BIT` (spec/40_bit_accessor.md section 1). -/
theorem exec_setByteAtBit (s : State) : exec .setByteAtBit s =
    .next (State.complete { s with buf := s.buf.setByteAtBit s.opLc s.opByteValue s.opBitOffset } .ok) :=
  rfl

/-- One engine step of `CRC_TABLE` (spec/41_crc_engine.md section 2). -/
theorem exec_crcTable (s : State) : exec .crcTable s =
    .next ((s.setResult ((crcTableEntry s.opByteValue).setWidth 32)).complete .ok) := rfl

/-- A step that writes `RESULT` and completes, for a command that does no more. -/
theorem completes_setResult (i : Instr) (s : State) (r : Word) {code : OutcomeCode}
    (hcode : code ∈ i.outcomes) (hi : i.writesResult = true) :
    Completes i s ((s.setResult r).complete code) where
  state := rfl
  outcome := hcode
  buffer := .refl
  keepsResult h := by rw [hi] at h; cases h
  keepsBuffer _ := rfl

/-- A step that writes `BUF` and completes. -/
theorem completes_setBuf (i : Instr) (s : State) (m : Memory) (r : Word) {code : OutcomeCode}
    (hcode : code ∈ i.outcomes) (hm : s.buf.WritesBelow s.lc.toNat m) (hi : i.writesBuffer = true)
    (hr : i.writesResult = false → r = s.result) :
    Completes i s (State.complete { s with buf := m, result := r } code) where
  state := rfl
  outcome := hcode
  buffer := hm
  keepsResult := hr
  keepsBuffer h := by rw [hi] at h; cases h

theorem execSyncFind_completes (s : State) :
    ∃ t, exec .syncFind s = .next t ∧ Completes .syncFind s t := by
  cases hfind : s.buf.find s.lc.toNat s.a.toNat s.searchLimit with
  | none => exact ⟨_, exec_syncFind_notFound s hfind, completes_setResult _ _ _ (by decide) rfl⟩
  | some p => exact ⟨_, exec_syncFind_found s hfind, completes_setResult _ _ _ (by decide) rfl⟩

theorem execFramePatch_completes (s : State) :
    ∃ t, exec .framePatch s = .next t ∧ Completes .framePatch s t := by
  obtain hpast | hin := Nat.lt_or_ge s.opLc (s.opByteIndex + s.buf.frameLength s.opLc s.opByteIndex)
  · exact ⟨_, exec_framePatch_truncated s rfl hpast, completes_setResult _ _ _ (by decide) rfl⟩
  · exact ⟨_, exec_framePatch_patched s rfl hin, completes_setBuf _ _ _ _ (by decide)
      (Memory.patchFrame_writesBelow _ (s.buf.frameLength_bounds _ _).1 hin) rfl nofun⟩

theorem runSeek_completes_or_loops (s : State) :
    Completes .run s (runSeek s) ∨ Loops s (runSeek s) := by
  obtain ⟨-, h⟩ | ⟨k, -, h⟩ := runSeek_cases s <;> rw [h]
  · exact .inl (completes_setResult _ _ _ (by decide) rfl)
  · exact .inr ⟨rfl, .refl⟩

/-- A frame that ends by the trimmed length ends by `Lc`. -/
theorem State.runPosition_add_le (s : State) {fl : Nat} (hfl : 2 ≤ fl)
    (h : s.cursor.toNat + fl ≤ s.runLength) : s.runPosition + fl ≤ s.opLc := by
  rw [State.runLength_eq] at h
  rw [State.runPosition_eq, State.opLc_eq]
  omega

theorem runIteration_completes_or_loops (s : State) (hphase : s.phase = .runLoop) :
    Completes .run s (runIteration s) ∨ Loops s (runIteration s) := by
  obtain ⟨-, h⟩ | ⟨-, ⟨-, ⟨-, h⟩ | ⟨p, -, h⟩⟩ | ⟨-, ⟨-, h⟩ | ⟨hin, h⟩⟩⟩ := runIteration_cases s <;> rw [h]
  case inl => exact .inl (completes_setResult _ _ _ (by decide) rfl)
  case inr.inl.inl => exact .inl (completes_setResult _ _ _ (by decide) rfl)
  case inr.inl.inr => exact .inr ⟨by rw [← hphase], .refl⟩
  case inr.inr.inl => exact .inl (completes_setResult _ _ _ (by decide) rfl)
  case inr.inr.inr =>
    have htwo : 2 ≤ s.buf.frameLength s.opLc s.runPosition := (s.buf.frameLength_bounds _ _).1
    exact .inr ⟨by rw [← hphase],
      Memory.patchFrame_writesBelow _ htwo (s.runPosition_add_le htwo hin)⟩

/-- The engine step of `RUN` outside RUN_LOOP is the seek step (R149). -/
theorem exec_run_of_not_runLoop (s : State) (h : s.phase ≠ .runLoop) :
    exec .run s = .next (runSeek s) := by
  simp only [exec, execRun]
  cases hp : s.phase with
  | idle => rfl
  | exec => rfl
  | runLoop => exact absurd hp h

theorem execRun_completes_or_loops (s : State) :
    ∃ t, exec .run s = .next t ∧ (Completes .run s t ∨ Loops s t) := by
  by_cases hphase : s.phase = .runLoop
  · exact ⟨_, exec_run_of_runLoop s hphase, runIteration_completes_or_loops s hphase⟩
  · exact ⟨_, exec_run_of_not_runLoop s hphase, runSeek_completes_or_loops s⟩

/-- What one engine step of a command can do: it completes the command, and only `RUN` may stay in
progress instead. -/
theorem exec_completes_or_loops (i : Instr) (s : State) :
    ∃ t, exec i s = .next t ∧ (Completes i s t ∨ i = .run ∧ Loops s t) := by
  cases i with
  | getBit => exact ⟨_, exec_getBit s, .inl (completes_setResult _ _ _ (by decide) rfl)⟩
  | setBit =>
    exact ⟨_, exec_setBit s, .inl (completes_setBuf _ _ _ _ (by decide)
      (Memory.setBit_writesBelow _ _ _ _) rfl fun _ => rfl)⟩
  | setByteAtBit =>
    exact ⟨_, exec_setByteAtBit s, .inl (completes_setBuf _ _ _ _ (by decide)
      (Memory.setByteAtBit_writesBelow _ _ _ _) rfl fun _ => rfl)⟩
  | crcTable => exact ⟨_, exec_crcTable s, .inl (completes_setResult _ _ _ (by decide) rfl)⟩
  | crcByte => exact ⟨_, exec_crcByte s, .inl (completes_setResult _ _ _ (by decide) rfl)⟩
  | crcCompute => exact ⟨_, exec_crcCompute s, .inl (completes_setResult _ _ _ (by decide) rfl)⟩
  | syncFind =>
    obtain ⟨t, ht, hdone⟩ := execSyncFind_completes s
    exact ⟨t, ht, .inl hdone⟩
  | lenDecode => exact ⟨_, exec_lenDecode s, .inl (completes_setResult _ _ _ (by decide) rfl)⟩
  | framePatch =>
    obtain ⟨t, ht, hdone⟩ := execFramePatch_completes s
    exact ⟨t, ht, .inl hdone⟩
  | run =>
    obtain ⟨t, ht, hrun⟩ := execRun_completes_or_loops s
    exact ⟨t, ht, hrun.imp_right fun hloop => ⟨rfl, hloop⟩⟩

/-- The same of a step that is known to answer `t`. -/
theorem completes_or_loops_of_exec {i : Instr} {s t : State} (h : exec i s = .next t) :
    Completes i s t ∨ i = .run ∧ Loops s t := by
  obtain ⟨u, hu, hstep⟩ := exec_completes_or_loops i s
  rw [hu] at h
  cases h
  exact hstep

theorem exec_writesBelow {i : Instr} {s t : State} (h : exec i s = .next t) :
    s.buf.WritesBelow s.lc.toNat t.buf := by
  obtain hdone | ⟨-, hloop⟩ := completes_or_loops_of_exec h
  · exact hdone.buffer
  · exact hloop.buffer

theorem Completes.phase_idle {i : Instr} {s t : State} (h : Completes i s t) :
    t.phase = .idle ∧ t.busy = false ∧ t.done = true := by
  rw [h.state]
  exact ⟨rfl, rfl, rfl⟩

theorem Loops.phase_runLoop {s t : State} (h : Loops s t) : t.phase = .runLoop ∧ t.busy = s.busy := by
  rw [h.state]
  exact ⟨rfl, rfl⟩

/-- Settles O48: a step completes its command with an outcome of the table, or is `RUN`'s in its loop. -/
theorem outcomesOfEachCommand : Obligations.OutcomesOfEachCommand := by
  intro i s t h
  obtain hdone | ⟨hrun, hloop⟩ := completes_or_loops_of_exec h
  · obtain ⟨hphase, hbusy, hfinished⟩ := hdone.phase_idle
    refine .inl ⟨hphase, hbusy, hfinished, ?_⟩
    have houtcome : t.outcome ∈ i.outcomes := hdone.outcome
    cases i <;> exact houtcome
  · exact .inr ⟨hrun, hloop.phase_runLoop.1⟩

/-- What an engine step may change: the completion fields, the pass's registers, `RESULT` and `BUF`
(R72, R181). -/
def EngineFrame (s t : State) : Prop :=
  t = { s with
    result := t.result, frameCount := t.frameCount, trim := t.trim, cursor := t.cursor
    busy := t.busy, done := t.done, outcome := t.outcome, phase := t.phase, buf := t.buf }

theorem exec_engineFrame {i : Instr} {s t : State} (h : exec i s = .next t) : EngineFrame s t := by
  obtain hdone | ⟨-, hloop⟩ := completes_or_loops_of_exec h
  · rw [hdone.state]; rfl
  · rw [hloop.state]; rfl

/-- Settles O49: the frame of the step, and what a completed command keeps beside it. -/
theorem engineStepFrame : Obligations.EngineStepFrame := by
  intro i s t h
  refine ⟨exec_engineFrame h, fun hrun => ?registers, fun hi => ?result, fun hi => ?buffer⟩
  all_goals obtain hdone | ⟨rfl, hloop⟩ := completes_or_loops_of_exec h
  case registers.inl => rw [hdone.state]; exact ⟨rfl, rfl, rfl⟩
  case registers.inr => exact absurd rfl hrun
  case result.inl => exact hdone.keepsResult (by simp [Instr.writesResult, hi])
  case result.inr => simp at hi
  case buffer.inl =>
    refine hdone.keepsBuffer ?_
    have hreaders : ∀ j ∈ [Instr.getBit, .crcTable, .crcByte, .crcCompute, .syncFind, .lenDecode],
      j.writesBuffer = false := by decide
    exact hreaders i hi
  case buffer.inr => simp at hi

/-- The engine's step always answers a next state. -/
theorem engineStep_answers (s : State) : ∃ t, engineStep s = .next t := by
  obtain ⟨-, h⟩ | ⟨-, i, -, h⟩ | ⟨-, e, -, h⟩ | ⟨-, h⟩ := engineStep_cases s
  · exact ⟨s, h⟩
  · obtain ⟨t, ht, -⟩ := exec_completes_or_loops i s
    exact ⟨t, h.trans ht⟩
  · exact ⟨_, h⟩
  · obtain ⟨t, ht, -⟩ := exec_completes_or_loops .run s
    exact ⟨t, h.trans ht⟩

theorem engineStep_engineFrame {s t : State} (h : engineStep s = .next t) : EngineFrame s t := by
  obtain ⟨-, hs⟩ | ⟨-, i, -, hs⟩ | ⟨-, e, -, hs⟩ | ⟨-, hs⟩ := engineStep_cases s <;> rw [hs] at h
  case inl => cases h; rfl
  case inr.inl => exact exec_engineFrame h
  case inr.inr.inl => cases h; rfl
  case inr.inr.inr => exact exec_engineFrame h

theorem step_of_empty (s : State) (h : s.agenda = []) : step s = engineStep s := by
  simp only [step, nextMove, h]

theorem step_of_cons (s : State) {turn : Turn} {rest : List Turn} (h : s.agenda = turn :: rest) :
    step s = takeTurn turn { s with agenda := rest } := by
  simp only [step, nextMove, h]

theorem engineStep_of_idle (s : State) (h : s.phase = .idle) : engineStep s = .next s := by
  simp only [engineStep, h]

theorem engineStep_of_runLoop (s : State) (h : s.phase = .runLoop) : engineStep s = exec .run s := by
  simp only [engineStep, h]

theorem engineStep_of_decoded (s : State) {i : Instr} (h : s.phase = .exec) (hi : decode s.cw = .ok i) :
    engineStep s = exec i s := by
  simp only [engineStep, h, hi]

theorem engineStep_of_rejected (s : State) {e : DecodeError} (h : s.phase = .exec)
    (he : decode s.cw = .error e) : engineStep s = .next (s.complete .illegalCmd) := by
  simp only [engineStep, h, he]

/-- The engine's step on an illegal word is its completion with `ILLEGAL_CMD` (R42, R74). -/
theorem engineStep_of_illegal (s : State) (h : s.phase = .exec) (hcw : legalCommandWord s.cw = false) :
    engineStep s = .next (s.complete .illegalCmd) := by
  obtain ⟨e, he⟩ := decode_of_illegal s.cw hcw
  exact engineStep_of_rejected s h he

/-- Settles O4: with the engine's move next, or no move left, the step is the engine's, which in EXEC
runs the decoded command. -/
theorem stepRunsDecodedCommand : Obligations.StepRunsDecodedCommand := by
  intro s i hphase hdecode
  refine ⟨fun hempty => ?_, fun rest hnext => ?_⟩
  · rw [step_of_empty s hempty, engineStep_of_decoded s hphase hdecode]
  · rw [step_of_cons s hnext, takeTurn]
    exact engineStep_of_decoded { s with agenda := rest } hphase hdecode

/-- Settles O5: with no move left the step is the engine's, in each of its phases. -/
theorem engineStepInEachPhase : Obligations.EngineStepInEachPhase := by
  intro s hempty
  rw [step_of_empty s hempty]
  exact ⟨engineStep_of_idle s, engineStep_of_runLoop s, engineStep_of_illegal s⟩

/-- With the engine's move put first, the step is the engine's at the state with the agenda as it was. -/
theorem step_engineFirst (s : State) (agenda : List Turn) :
    step { s with agenda := engineFirst agenda } = engineStep { s with agenda := agenda } := by
  cases agenda with
  | nil => rfl
  | cons turn rest => rfl

/-- Settles O6: the engine's move comes first, and finds the accepted word in EXEC. -/
theorem fetchedWordRunsNext : Obligations.FetchedWordRunsNext := by
  intro s w i hdecode
  have hword : tableWord 32 w = BitVec.ofNat 32 w := by
    rw [tableWord]
    exact BitVec.eq_of_toNat_eq (by simp)
  rw [State.withFetchWord, State.acceptNext, hword, step_engineFirst]
  exact engineStep_of_decoded (s.accept (BitVec.ofNat 32 w)) rfl hdecode

end Sys2Proof.Machine
end

section
/-! PROOFS. What the host can change while a command is in progress, and that the engine's step neither
reads nor writes it (spec/20_memory.md R67, spec/70_reset_and_hazards.md R208). -/

namespace Sys2Proof.Machine

open Safety (sameEngine)

/-- The engine of `s` beside the host's side of `h`: `LEN`, the operand registers, the sticky bits and
the model's agenda and reply. -/
def State.withHost (s h : State) : State :=
  { s with
    len := h.len, argA := h.argA, argB := h.argB, argC := h.argC
    cmdOverrun := h.cmdOverrun, bufConflict := h.bufConflict, agenda := h.agenda, reply := h.reply }

theorem sameEngine_iff_withHost (s t : State) : sameEngine s t ↔ t = s.withHost t := Iff.rfl

theorem sameEngine_withHost (s h : State) : sameEngine s (s.withHost h) := rfl

/-- A step of `RUN` on either side of a change of the host's side. -/
theorem runSeek_withHost (s h : State) : runSeek (s.withHost h) = (runSeek s).withHost h := by
  obtain ⟨hfind, heq⟩ | ⟨k, hfind, heq⟩ := runSeek_cases s <;> rw [heq]
  · exact runSeek_noSync (s.withHost h) hfind
  · exact runSeek_found (s.withHost h) hfind

theorem runIteration_withHost (s h : State) :
    runIteration (s.withHost h) = (runIteration s).withHost h := by
  obtain ⟨hend, heq⟩ | ⟨hmore, ⟨hlost, ⟨hfind, heq⟩ | ⟨p, hfind, heq⟩⟩ | ⟨hmark, ⟨hpast, heq⟩ | ⟨hin, heq⟩⟩⟩
    := runIteration_cases s <;> rw [heq]
  case inl => exact runIteration_done (s.withHost h) hend
  case inr.inl.inl => exact runIteration_exhausted (s.withHost h) hmore hlost hfind
  case inr.inl.inr => exact runIteration_resync (s.withHost h) hmore hlost hfind
  case inr.inr.inl => exact runIteration_truncated (s.withHost h) hmore hmark hpast
  case inr.inr.inr => exact runIteration_patched (s.withHost h) hmore hmark hin

/-- A command's step runs alike whatever the host's side is, and leaves it as it is. -/
theorem exec_withHost {i : Instr} {s t : State} (h : State) (hstep : exec i s = .next t) :
    exec i (s.withHost h) = .next (t.withHost h) := by
  cases i with
  | getBit => cases hstep; rfl
  | setBit => cases hstep; rfl
  | setByteAtBit => cases hstep; rfl
  | crcTable => cases hstep; rfl
  | crcByte => cases hstep; rfl
  | crcCompute => cases hstep; rfl
  | lenDecode => cases hstep; rfl
  | syncFind =>
    cases hfind : s.buf.find s.lc.toNat s.a.toNat s.searchLimit with
    | none =>
      rw [exec_syncFind_notFound s hfind] at hstep
      cases hstep
      exact exec_syncFind_notFound (s.withHost h) hfind
    | some p =>
      rw [exec_syncFind_found s hfind] at hstep
      cases hstep
      exact exec_syncFind_found (s.withHost h) hfind
  | framePatch =>
    obtain hpast | hin := Nat.lt_or_ge s.opLc (s.opByteIndex + s.buf.frameLength s.opLc s.opByteIndex)
    · rw [exec_framePatch_truncated s rfl hpast] at hstep
      cases hstep
      exact exec_framePatch_truncated (s.withHost h) rfl hpast
    · rw [exec_framePatch_patched s rfl hin] at hstep
      cases hstep
      exact exec_framePatch_patched (s.withHost h) rfl hin
  | run =>
    by_cases hphase : s.phase = .runLoop
    · rw [exec_run_of_runLoop s hphase] at hstep
      cases hstep
      rw [exec_run_of_runLoop (s.withHost h) hphase, runIteration_withHost]
    · rw [exec_run_of_not_runLoop s hphase] at hstep
      cases hstep
      rw [exec_run_of_not_runLoop (s.withHost h) hphase, runSeek_withHost]

theorem engineStep_withHost {s t : State} (h : State) (hstep : engineStep s = .next t) :
    engineStep (s.withHost h) = .next (t.withHost h) := by
  obtain ⟨hphase, heq⟩ | ⟨hphase, i, hdecode, heq⟩ | ⟨hphase, e, hdecode, heq⟩ | ⟨hphase, heq⟩ :=
    engineStep_cases s <;> rw [heq] at hstep
  case inl => cases hstep; exact engineStep_of_idle (s.withHost h) hphase
  case inr.inl =>
    rw [engineStep_of_decoded (s.withHost h) hphase hdecode]
    exact exec_withHost h hstep
  case inr.inr.inl =>
    cases hstep
    exact engineStep_of_rejected (s.withHost h) hphase hdecode
  case inr.inr.inr =>
    rw [engineStep_of_runLoop (s.withHost h) hphase]
    exact exec_withHost h hstep

/-- A register write while a command is in progress leaves the engine as it is (R41, R67). -/
theorem sameEngine_writeReg_of_busy (s : State) (off : Nat) (v : Word) (hbusy : s.busy = true) :
    sameEngine s (s.writeReg off v) := by
  obtain ⟨-, -, h⟩ | ⟨-, hidle, -⟩ | ⟨-, h⟩ | ⟨-, h⟩ | ⟨-, h⟩ | ⟨-, h⟩ | ⟨-, h⟩ | ⟨-, h⟩ :=
    s.writeReg_cases off v
  case inr.inl => rw [hbusy] at hidle; cases hidle
  all_goals rw [h]; rfl

theorem sameEngine_hostReadByte (s : State) (a : Nat) : sameEngine s (s.hostReadByte a) := by
  rw [State.hostReadByte]
  split <;> rfl

theorem sameEngine_hostWriteByte_of_busy (s : State) (a : Nat) (v : Word) (hbusy : s.busy = true) :
    sameEngine s (s.hostWriteByte a v) := by
  rw [State.hostWriteByte, if_pos hbusy]
  rfl

theorem sameEngine_hostTransaction_of_busy (tx : Transaction) {s t : State} (hbusy : s.busy = true)
    (h : hostTransaction tx s = .next t) : sameEngine s t := by
  obtain ⟨off, rfl⟩ | ⟨off, v, -, rfl⟩ | ⟨a, rfl⟩ | ⟨a, v, rfl⟩ := hostTransaction_cases tx s t h
  · rfl
  · exact sameEngine_writeReg_of_busy s off v hbusy
  · exact sameEngine_hostReadByte s a
  · exact sameEngine_hostWriteByte_of_busy s a v hbusy

/-- Settles O50: a transaction changes the host's side only, and the engine's step commutes with a
change of the host's side. -/
theorem hostCannotDisturbCommandInProgress : Obligations.HostCannotDisturbCommandInProgress := by
  refine ⟨fun tx s t => sameEngine_hostTransaction_of_busy tx, fun s t u hsame hstep => ?_⟩
  rw [sameEngine_iff_withHost] at hsame
  refine ⟨u.withHost t, ?_, sameEngine_withHost u t, rfl, rfl, rfl, rfl, rfl, rfl⟩
  rw [hsame]
  exact engineStep_withHost t hstep

end Sys2Proof.Machine
end

section
/-! PROOFS. The host's transactions, each case by its own rule: the registers, `STATUS`, the buffer bytes
and what is refused (spec/10_state.md R24 to R37, spec/20_memory.md R52, R53). -/

namespace Sys2Proof.Machine

/-- A register access is inside the interface exactly when it is 32 bits wide, aligned and at most `0x3C`
(R53). -/
theorem regAccessWellFormed_iff (width off : Nat) :
    regAccessWellFormed width off = true ↔ width = 32 ∧ off % 4 = 0 ∧ off ≤ 0x3C := by
  simp only [regAccessWellFormed, Bool.and_eq_true, decide_eq_true_eq, and_assoc]

theorem hostTransaction_regRead (s : State) (off : Nat) (h : regAccessWellFormed 32 off = true) :
    hostTransaction (.regRead 32 off) s = .next { s with reply := some (s.readReg off) } := by
  simp only [hostTransaction, if_pos h]

theorem hostTransaction_regRead_refused (s : State) {width off : Nat}
    (h : regAccessWellFormed width off = false) :
    hostTransaction (.regRead width off) s = .refused (.registerAccess width off) := by
  simp only [hostTransaction, h, Bool.false_eq_true, if_false]

theorem hostTransaction_regWrite_refused (s : State) {width off : Nat} (v : Word)
    (h : regAccessWellFormed width off = false) :
    hostTransaction (.regWrite width off v) s = .refused (.registerAccess width off) := by
  simp only [hostTransaction, h, Bool.false_eq_true, if_false]

/-- The registers in the order of their offsets (R24). -/
theorem State.readReg_eq_getD (s : State) (off : Nat) (haligned : off % 4 = 0) (hlast : off ≤ 0x3C) :
    s.readReg off = ([0x4C433136#32, 0#32, s.statusWord, s.len, s.argA, s.argB, s.argC, s.result,
      s.frameCount, s.trim, s.cursor, BitVec.ofNat 32 s.cap, 0#32, 0#32, 0#32, 0#32] :
        List Word).getD (off / 4) 0#32 := by
  obtain ⟨k, rfl⟩ : ∃ k, off = 4 * k := ⟨off / 4, by omega⟩
  have hk : k < 16 := by omega
  rw [Nat.mul_div_cancel_left k (by decide)]
  interval_cases k <;> rfl

/-- Settles O8: a read changes `reply` only, and returns the register's place in the list. -/
theorem registerReadReturnsItsContent : Obligations.RegisterReadReturnsItsContent := by
  intro s off haligned hlast
  rw [hostTransaction_regRead s off ((regAccessWellFormed_iff 32 off).mpr ⟨rfl, haligned, hlast⟩),
    s.readReg_eq_getD off haligned hlast]

/-- Settles O9: each register's own write, with `LEN` below `2^32` because the written value is. -/
theorem registerWriteEffects : Obligations.RegisterWriteEffects := by
  intro s v
  refine ⟨fun off hoff => ?readOnly, hostTransaction_regWrite s 0x10 v rfl,
    hostTransaction_regWrite s 0x14 v rfl, hostTransaction_regWrite s 0x18 v rfl,
    BitVec.ofNat 32 (min v.toNat s.cap), hostTransaction_regWrite s 0x0C v rfl, ?clamp⟩
  case readOnly =>
    simp only [List.mem_cons, List.not_mem_nil, or_false] at hoff
    obtain rfl | rfl | rfl | rfl | rfl | rfl | rfl | rfl | rfl | rfl := hoff
    all_goals exact hostTransaction_regWrite s _ v rfl
  case clamp =>
    have hv : v.toNat < 2 ^ 32 := v.isLt
    rw [BitVec.toNat_ofNat, Nat.mod_eq_of_lt (by omega)]

/-- A write to `STATUS` by its two sticky bits (R26). -/
theorem State.writeStatus_eq (s : State) (v : Word) : s.writeStatus v = { s with
    cmdOverrun := if v.getLsbD 16 then false else s.cmdOverrun
    bufConflict := if v.getLsbD 17 then false else s.bufConflict } := by
  have hclear : ∀ sticky named : Bool, (sticky && !named) = if named then false else sticky := by decide
  rw [State.writeStatus, hclear, hclear]

/-- Settles O10: each field of the word is found under the fields appended above it. -/
theorem statusLayoutAndWriteOneToClear : Obligations.StatusLayoutAndWriteOneToClear := by
  refine ⟨rfl, rfl, rfl, rfl, rfl, rfl, fun s => ⟨s.statusWord_getLsbD_zero, s.statusWord_getLsbD_one,
    ?zeros, ?outcome, ?lastOp, ?overrun, ?conflict, ?upper, fun v => ?write⟩⟩
  case write => rw [hostTransaction_regWrite s 0x08 v rfl, ← State.writeStatus_eq]; rfl
  all_goals rw [State.statusWord]
  case zeros =>
    rw [BitVec.extractLsb'_append_eq_of_le (by decide), BitVec.extractLsb'_append_eq_of_le (by decide)]
    exact BitVec.extractLsb'_append_eq_right
  case outcome =>
    rw [BitVec.extractLsb'_append_eq_of_le (by decide), BitVec.extractLsb'_append_eq_of_le (by decide),
      BitVec.extractLsb'_append_eq_of_le (by decide)]
    exact BitVec.extractLsb'_append_eq_right
  case lastOp =>
    rw [BitVec.extractLsb'_append_eq_of_le (by decide), BitVec.extractLsb'_append_eq_of_le (by decide),
      BitVec.extractLsb'_append_eq_of_le (by decide), BitVec.extractLsb'_append_eq_of_le (by decide)]
    exact BitVec.extractLsb'_append_eq_right
  case overrun => simp only [BitVec.getLsbD_append]; simp
  case conflict => simp only [BitVec.getLsbD_append]; simp
  case upper =>
    rw [BitVec.extractLsb'_append_eq_of_le (by decide), BitVec.extractLsb'_append_eq_of_le (by decide),
      BitVec.extractLsb'_append_eq_of_le (by decide), BitVec.extractLsb'_append_eq_of_le (by decide),
      BitVec.extractLsb'_append_eq_of_le (by decide), BitVec.extractLsb'_append_eq_of_le (by decide)]
    exact BitVec.extractLsb'_append_eq_left

/-- Settles O11: the three grounds are those of the interface check, which both accesses make first. -/
theorem registerAccessRefusedOutsideInterface : Obligations.RegisterAccessRefusedOutsideInterface := by
  intro s width off v
  refine ⟨fun hout => ?refused, fun hwidth haligned hlast => ?answered⟩
  case refused =>
    have hbad : regAccessWellFormed width off = false := by
      rw [← Bool.not_eq_true, regAccessWellFormed_iff]
      exact hout
    exact ⟨hostTransaction_regRead_refused s hbad, hostTransaction_regWrite_refused s v hbad⟩
  case answered =>
    subst hwidth
    have hgood : regAccessWellFormed 32 off = true :=
      (regAccessWellFormed_iff 32 off).mpr ⟨rfl, haligned, hlast⟩
    exact ⟨⟨_, hostTransaction_regRead s off hgood⟩, _, hostTransaction_regWrite s off v hgood⟩

/-- A byte read while a command is in progress (R52). -/
theorem State.hostReadByte_of_busy (s : State) (a : Nat) (h : s.busy = true) :
    s.hostReadByte a = { s with reply := some 0#32, bufConflict := true } := by
  simp only [State.hostReadByte, State.hostByte, h, if_true]
  rfl

/-- A byte read of an idle block (R52). -/
theorem State.hostReadByte_of_idle (s : State) (a : Nat) (h : s.busy = false) :
    s.hostReadByte a =
      { s with reply := some ((if s.cap ≤ a then 0x00#8 else s.buf.read a).setWidth 32) } := by
  simp only [State.hostReadByte, State.hostByte, h, Bool.false_eq_true, if_false]

theorem State.hostWriteByte_of_busy (s : State) (a : Nat) (v : Word) (h : s.busy = true) :
    s.hostWriteByte a v = { s with bufConflict := true } := by
  rw [State.hostWriteByte, if_pos h, State.setBufConflict]

theorem State.hostWriteByte_outside (s : State) {a : Nat} (v : Word) (h : s.busy = false)
    (ha : s.cap ≤ a) : s.hostWriteByte a v = s := by
  simp only [State.hostWriteByte, h, Bool.false_eq_true, if_false, ge_iff_le, if_pos ha]

theorem State.hostWriteByte_inside (s : State) {a : Nat} (v : Word) (h : s.busy = false)
    (ha : a < s.cap) :
    s.hostWriteByte a v = { s with buf := s.buf.write a (v.extractLsb' 0 8) } := by
  simp only [State.hostWriteByte, h, Bool.false_eq_true, if_false, ge_iff_le, if_neg (Nat.not_le.mpr ha)]

/-- Settles O12: the three cases of a byte access. -/
theorem hostBufferTransaction : Obligations.HostBufferTransaction := by
  intro s a v
  simp only [hostTransaction]
  refine ⟨fun hbusy => ?busy, fun hidle hout => ?outside, fun hidle hin => ?inside⟩
  case busy => rw [s.hostReadByte_of_busy a hbusy, s.hostWriteByte_of_busy a v hbusy]; exact ⟨rfl, rfl⟩
  case outside =>
    rw [s.hostReadByte_of_idle a hidle, if_pos hout, s.hostWriteByte_outside v hidle hout]
    exact ⟨rfl, rfl⟩
  case inside =>
    rw [s.hostReadByte_of_idle a hidle, if_neg (Nat.not_le.mpr hin), s.hostWriteByte_inside v hidle hin]
    exact ⟨rfl, _, rfl, fun x => Memory.read_write _ _ _ _⟩

end Sys2Proof.Machine
end

section
/-! PROOFS. The agenda's moves one after another: the host's reads and writes in their order, polls,
`load` and `clr`, reset and power-on, and an illegal word's two steps (spec/20_memory.md R63,
spec/30_encoding.md R77, R78, spec/70_reset_and_hazards.md R200, R201). -/

namespace Sys2Proof.Machine

/-- The step on a host transaction. -/
theorem step_of_host (s : State) {tx : Transaction} {rest : List Turn}
    (h : s.agenda = .host tx :: rest) : step s = hostTransaction tx { s with agenda := rest } :=
  step_of_cons s h

/-- The step on a byte write inside the buffer of an idle block. -/
theorem step_of_bufWrite (s : State) {a : Nat} {v : Word} {rest : List Turn} (hidle : s.busy = false)
    (ha : a < s.cap) (h : s.agenda = .host (.bufWrite a v) :: rest) :
    step s = .next { s with buf := s.buf.write a (v.extractLsb' 0 8), agenda := rest } := by
  rw [step_of_host s h, hostTransaction, State.hostWriteByte_inside { s with agenda := rest } v hidle ha]

/-- Settles O13: the write leaves the byte that the read returns. -/
theorem hostReadAfterWriteSeesByte : Obligations.HostReadAfterWriteSeesByte := by
  intro s a v rest hidle ha hagenda
  have hread := State.hostReadByte_of_idle
    { s with buf := s.buf.write a (v.extractLsb' 0 8), agenda := rest } a hidle
  rw [core_run_succ 1 s _ (step_of_bufWrite s hidle ha hagenda)]
  refine ⟨_, core_run_succ 0 _ _ rfl, ?_⟩
  rw [hread, if_neg (Nat.not_le.mpr ha), Memory.read_write_self]
  exact ⟨rfl, rfl⟩

/-- Settles O14: a poll reads bit 0 of `STATUS`, which is `BUSY`. -/
theorem waitPollsUntilNotBusy : Obligations.WaitPollsUntilNotBusy := by
  intro s rest hagenda
  have hbit : ({ s with agenda := rest } : State).statusWord.getLsbD 0 = s.busy :=
    State.statusWord_getLsbD_zero _
  rw [step_of_cons s hagenda, takeTurn, State.pollStatus, hbit]
  refine ⟨fun hidle => ?_, fun hbusy => ?_⟩
  · rw [if_neg (Bool.eq_false_iff.mp hidle)]; rfl
  · rw [if_pos hbusy]; rfl

/-- The buffer with the bytes stored at `a`, `a + 1`, ... -/
def Memory.store (m : Memory) (a : Nat) : List Byte → Memory
  | [] => m
  | v :: rest => (m.write a v).store (a + 1) rest

theorem Memory.read_store (m : Memory) (a : Nat) (bytes : List Byte) (x : Nat) :
    (m.store a bytes).read x =
      if a ≤ x ∧ x < a + bytes.length then bytes.getD (x - a) 0#8 else m.read x := by
  induction bytes generalizing m a with
  | nil => rw [if_neg (by simp)]; rfl
  | cons v rest ih =>
    rw [Memory.store, ih, List.length_cons]
    obtain hlt | rfl | hgt := Nat.lt_trichotomy x a
    · rw [if_neg (by omega), if_neg (by omega), Memory.read_write_other _ _ (by omega)]
    · rw [if_neg (by omega), if_pos (by omega), Memory.read_write_self, Nat.sub_self,
        List.getD_cons_zero]
    · rw [Memory.read_write_other _ _ (by omega), show x - a = x - (a + 1) + 1 by omega,
        List.getD_cons_succ]
      exact if_congr (by omega) rfl rfl

/-- A byte written as a word is stored as it was. -/
theorem extractLsb'_setWidth_byte (v : Byte) : (v.setWidth 32).extractLsb' 0 8 = v := by
  have hv : v.toNat < 2 ^ 8 := v.isLt
  refine BitVec.eq_of_toNat_eq ?_
  rw [BitVec.extractLsb'_toNat, BitVec.toNat_setWidth, Nat.shiftRight_zero]
  omega

/-- The moves of a row of byte writes, one step each (R77). -/
theorem core_run_byteWrites (n : Nat) (s : State) (a : Nat) (bytes : List Byte) (rest : List Turn)
    (hidle : s.busy = false) (hfit : a + bytes.length ≤ s.cap)
    (hagenda : s.agenda = byteWriteTurns a bytes ++ rest) :
    Sys2Proof.core.run (bytes.length + n) s =
      Sys2Proof.core.run n { s with buf := s.buf.store a bytes, agenda := rest } := by
  induction bytes generalizing s a with
  | nil =>
    have hsame : s = { s with buf := s.buf.store a [], agenda := rest } := by
      rw [show rest = s.agenda from hagenda.symm]; rfl
    rw [← hsame, List.length_nil, Nat.zero_add]
  | cons v bytes ih =>
    rw [List.length_cons] at hfit
    rw [List.length_cons, show bytes.length + 1 + n = bytes.length + n + 1 by omega,
      core_run_succ _ s _ (step_of_bufWrite s hidle (by omega) hagenda), extractLsb'_setWidth_byte]
    exact ih { s with buf := s.buf.write a v, agenda := byteWriteTurns (a + 1) bytes ++ rest }
      (a + 1) hidle (by change _ ≤ s.cap; omega) rfl

/-- The step on a register write inside the interface. -/
theorem step_of_regWrite (s : State) {off : Nat} {v : Word} {rest : List Turn}
    (hin : regAccessWellFormed 32 off = true) (h : s.agenda = .host (.regWrite 32 off v) :: rest) :
    step s = .next (State.writeReg { s with agenda := rest } off v) := by
  rw [step_of_host s h, hostTransaction_regWrite _ off v hin]

/-- Settles O15: the byte writes, then the write of `LEN`, whose clamp does nothing because the bytes
fit; `clr` writes both sticky bits of `STATUS`. -/
theorem loadStoresBytesAndLength : Obligations.LoadStoresBytesAndLength := by
  refine ⟨fun s a bytes hidle hfit hcap hagenda => ?load, fun s hagenda => ?clr⟩
  case load =>
    have hlen : (BitVec.ofNat 32 (a + bytes.length)).toNat = a + bytes.length := by
      rw [BitVec.toNat_ofNat, Nat.mod_eq_of_lt (by omega)]
    rw [core_run_byteWrites 1 s a bytes _ hidle hfit hagenda,
      core_run_succ 0 _ _ (step_of_regWrite _ (off := 0x0C) rfl rfl)]
    refine ⟨_, BitVec.ofNat 32 (min (BitVec.ofNat 32 (a + bytes.length)).toNat s.cap), s.buf.store a bytes,
      rfl, rfl, ?_, s.buf.read_store a bytes⟩
    rw [hlen, Nat.min_eq_left hfit, hlen]
  case clr =>
    rw [core_run_succ 0 s _ (step_of_regWrite s (off := 0x08) rfl hagenda)]
    exact congrArg Host.Outcome.next (State.writeStatus_eq _ _)

/-- Settles O16: the reset event writes the reset state over all but what is not the block's. -/
theorem resetEventLeavesResetValues : Obligations.ResetEventLeavesResetValues := by
  intro s rest hagenda
  rw [step_of_cons s hagenda, takeTurn, State.resetEvent_eq]
  rfl

/-- Settles O17: power-on lists no byte, so every byte reads as the free value of the new power-on. -/
theorem powerOnDrawsEveryByte : Obligations.PowerOnDrawsEveryByte := by
  intro s rest hagenda
  rw [step_of_cons s hagenda, takeTurn, State.powerOnEvent_eq, State.resetEvent_eq]
  exact ⟨{ cells := [], draw := s.buf.draw + 1 }, rfl, Memory.empty_wf _, fun _ => rfl⟩

/-- The step on an accepted `CMD` write of an idle block (R41). -/
theorem step_of_writeCmd (s : State) {v : Word} {rest : List Turn} (hidle : s.busy = false)
    (hagenda : s.agenda = .host (.regWrite 32 0x04 v) :: rest) :
    step s = .next (State.accept { s with agenda := rest } v) := by
  rw [step_of_host s hagenda, hostTransaction_writeCmd,
    State.writeCmd_of_idle { s with agenda := rest } v hidle]

/-- The step after the acceptance of an illegal word, with only the engine moving (R42, R74). -/
theorem step_of_accept_illegal (s : State) {v : Word} (hagenda : s.agenda = [])
    (hillegal : legalCommandWord v = false) :
    step (s.accept v) = .next ((s.accept v).complete .illegalCmd) :=
  (step_of_empty (s.accept v) hagenda).trans (engineStep_of_illegal (s.accept v) rfl hillegal)

/-- Acceptance and completion of a word that is not `RUN`'s keep the pass's registers (R41, R181). -/
theorem State.accept_complete_of_ne_run (s : State) {v : Word} (h : v ≠ encode .run)
    (code : OutcomeCode) : (s.accept v).complete code = { s with
      cw := v, a := s.argA, b := s.argB, c := s.argC, lc := s.len
      lastOp := v.extractLsb' 0 8, outcome := code, busy := false, done := true, phase := .idle } := by
  rw [State.accept, if_neg h, if_neg h, if_neg h]
  rfl

/-- Settles O47: acceptance latches the word and, as it is not `RUN`'s, keeps the pass's registers; the
engine's step completes it with `ILLEGAL_CMD`. -/
theorem illegalCommandHasNoOtherEffect : Obligations.IllegalCommandHasNoOtherEffect := by
  intro s v hillegal hidle hagenda
  have hnotRun : v ≠ encode .run := by
    rintro rfl
    exact absurd hillegal (by decide)
  rw [core_run_succ 1 s _ (step_of_writeCmd s hidle hagenda),
    core_run_succ 0 _ _ (step_of_accept_illegal { s with agenda := [] } rfl hillegal), core_run_zero,
    State.accept_complete_of_ne_run _ hnotRun]

end Sys2Proof.Machine
end

section
/-! PROOFS. The moves to come: no step leaves the register interface unless its move does, and a host that
waits for its commands stays one (spec/20_memory.md R53, spec/30_encoding.md R79). -/

namespace Sys2Proof.Machine

open Safety

theorem hostTransaction_inside (tx : Transaction) (s : State)
    (h : insideInterface (.host tx) = true) : ∃ t, hostTransaction tx s = .next t := by
  cases tx with
  | regRead width off => exact ⟨_, if_pos h⟩
  | regWrite width off v => exact ⟨_, if_pos h⟩
  | bufRead a => exact ⟨_, rfl⟩
  | bufWrite a v => exact ⟨_, rfl⟩

theorem hostTransaction_outside (tx : Transaction) (s : State)
    (h : insideInterface (.host tx) = false) :
    ∃ width off, hostTransaction tx s = .refused (.registerAccess width off) := by
  cases tx with
  | regRead width off => exact ⟨width, off, hostTransaction_regRead_refused s h⟩
  | regWrite width off v => exact ⟨width, off, hostTransaction_regWrite_refused s v h⟩
  | bufRead a => cases h
  | bufWrite a v => cases h

theorem takeTurn_inside (turn : Turn) (s : State) (h : insideInterface turn = true) :
    ∃ t, takeTurn turn s = .next t := by
  cases turn with
  | engine => exact engineStep_answers s
  | host tx => exact hostTransaction_inside tx s h
  | wait => exact ⟨_, rfl⟩
  | reset => exact ⟨_, rfl⟩
  | powerOn => exact ⟨_, rfl⟩

theorem takeTurn_outside (turn : Turn) (s : State) (h : insideInterface turn = false) :
    ∃ width off, takeTurn turn s = .refused (.registerAccess width off) := by
  cases turn with
  | host tx => exact hostTransaction_outside tx s h
  | engine => cases h
  | wait => cases h
  | reset => cases h
  | powerOn => cases h

theorem State.writeReg_agenda (s : State) (off : Nat) (v : Word) :
    (s.writeReg off v).agenda = s.agenda := by
  obtain ⟨-, -, h⟩ | ⟨-, -, h⟩ | ⟨-, h⟩ | ⟨-, h⟩ | ⟨-, h⟩ | ⟨-, h⟩ | ⟨-, h⟩ | ⟨-, h⟩ :=
    s.writeReg_cases off v
  all_goals exact (congrArg State.agenda h).trans rfl

theorem State.hostWriteByte_agenda (s : State) (a : Nat) (v : Word) :
    (s.hostWriteByte a v).agenda = s.agenda := by
  obtain ⟨-, h⟩ | ⟨-, -, h⟩ | ⟨-, -, h⟩ := s.hostWriteByte_cases a v
  all_goals exact (congrArg State.agenda h).trans rfl

/-- A transaction leaves the moves to come as they are. -/
theorem hostTransaction_agenda {tx : Transaction} {s t : State} (h : hostTransaction tx s = .next t) :
    t.agenda = s.agenda := by
  obtain ⟨off, rfl⟩ | ⟨off, v, -, rfl⟩ | ⟨a, rfl⟩ | ⟨a, v, rfl⟩ := hostTransaction_cases tx s t h
  · rfl
  · exact s.writeReg_agenda off v
  · rw [sameEngine_hostReadByte s a, State.hostReadByte]; split <;> rfl
  · exact s.hostWriteByte_agenda a v

theorem engineStep_agenda {s t : State} (h : engineStep s = .next t) : t.agenda = s.agenda := by
  rw [engineStep_engineFrame h]

/-- A move leaves the moves to come as they are, but for a poll that reads busy (R77). -/
theorem takeTurn_agenda {turn : Turn} {s t : State} (h : takeTurn turn s = .next t) :
    t.agenda = s.agenda ∨ t.agenda = .engine :: .wait :: s.agenda := by
  cases turn with
  | engine => exact .inl (engineStep_agenda h)
  | host tx => exact .inl (hostTransaction_agenda h)
  | wait =>
    cases h
    rw [State.pollStatus_agenda]
    split
    · exact .inr rfl
    · exact .inl rfl
  | reset => cases h; exact .inl rfl
  | powerOn => cases h; exact .inl rfl

/-- Settles O20: the engine's step always answers, a move answers or is refused by its own place, and no
move adds one that leaves the interface. -/
theorem stepNeverStopsInsideInterface : Obligations.StepNeverStopsInsideInterface := by
  intro s
  obtain ⟨hempty, hstep⟩ | ⟨turn, rest, hagenda, hstep⟩ := step_cases s <;> rw [hstep]
  case inl =>
    refine ⟨fun _ => engineStep_answers s, fun hout => ?_, fun t hinside h => ?_⟩
    · simp [nextInside, hempty] at hout
    · rwa [agendaInside, engineStep_agenda h]
  case inr =>
    have hnext : nextInside s = insideInterface turn := by rw [nextInside, hagenda]
    rw [hnext]
    refine ⟨takeTurn_inside turn _, takeTurn_outside turn _, fun t hinside h => ?_⟩
    rw [agendaInside, hagenda, List.all_cons, Bool.and_eq_true] at hinside
    obtain ht | ht := takeTurn_agenda h <;> rw [agendaInside, ht]
    · exact hinside.2
    · simpa [insideInterface] using hinside.2

/-- An engine step keeps `BUSY` at 1 exactly outside IDLE (R26). -/
theorem engineStep_busyPhase {s t : State} (h : engineStep s = .next t)
    (hs : s.busy = true ↔ s.phase ≠ .idle) : t.busy = true ↔ t.phase ≠ .idle := by
  have hexec : ∀ i, exec i s = .next t → s.phase ≠ .idle → (t.busy = true ↔ t.phase ≠ .idle) := by
    intro i hi hphase
    obtain hdone | ⟨-, hloop⟩ := completes_or_loops_of_exec hi
    · obtain ⟨hidle, hbusy, -⟩ := hdone.phase_idle
      simp [hidle, hbusy]
    · obtain ⟨hrun, hbusy⟩ := hloop.phase_runLoop
      simp [hrun, hbusy, hs, hphase]
  obtain ⟨-, heq⟩ | ⟨hphase, i, -, heq⟩ | ⟨-, e, -, heq⟩ | ⟨hphase, heq⟩ := engineStep_cases s <;>
    rw [heq] at h
  case inl => cases h; exact hs
  case inr.inl => exact hexec i h (by simp [hphase])
  case inr.inr.inl => cases h; simp
  case inr.inr.inr => exact hexec .run h (by simp [hphase])

/-- In IDLE the engine leaves the state, and elsewhere its step leaves the host's side. -/
theorem orderly_engineStep {s t : State} (h : engineStep s = .next t) (hs : Orderly s) : Orderly t where
  waits := by rw [engineStep_agenda h]; exact hs.waits
  polls hbusy := by
    rw [engineStep_agenda h]
    refine hs.polls (hs.busyPhase.mpr fun hidle => ?_)
    rw [engineStep_of_idle s hidle] at h
    cases h
    exact hs.busyPhase.mp hbusy hidle
  busyPhase := engineStep_busyPhase h hs.busyPhase
  noOverrun := by rw [engineStep_engineFrame h]; exact hs.noOverrun
  noConflict := by rw [engineStep_engineFrame h]; exact hs.noConflict

/-- Taking a move off the agenda of an orderly host leaves one, if what it leaves for a command in
progress is still a poll. -/
theorem orderly_tail {s : State} (hs : Orderly s) {turn : Turn} {rest : List Turn}
    (hagenda : s.agenda = turn :: rest) (hpolls : s.busy = true → pollsNext rest = true) :
    Orderly { s with agenda := rest } where
  waits := by
    have hwaits := hs.waits
    rw [hagenda, everyCmdWaits, Bool.and_eq_true] at hwaits
    exact hwaits.2
  polls := hpolls
  busyPhase := hs.busyPhase
  noOverrun := hs.noOverrun
  noConflict := hs.noConflict

theorem startsWithWait_iff (moves : List Turn) :
    startsWithWait moves = true ↔ ∃ rest, moves = .wait :: rest := by
  constructor
  · intro h
    unfold startsWithWait at h
    split at h
    · exact ⟨_, rfl⟩
    · cases h
  · rintro ⟨rest, rfl⟩
    rfl

/-- A host that waits has a poll next after a write to `CMD`. -/
theorem pollsNext_of_startsWithWait {moves : List Turn} (h : startsWithWait moves = true) :
    pollsNext moves = true := by
  obtain ⟨rest, rfl⟩ := (startsWithWait_iff moves).mp h
  rfl

/-- After the engine's move a poll is still next. -/
theorem pollsNext_of_engine {rest : List Turn} (h : pollsNext (.engine :: rest) = true) :
    pollsNext rest = true := by
  unfold pollsNext at h
  split at h
  · rename_i heq; cases heq
  · rename_i heq; cases heq; rfl
  · cases h

/-- A register write of an idle orderly host: the only one that starts a command is followed by a poll. -/
theorem orderly_writeReg {s : State} (hs : Orderly s) (hidle : s.busy = false) (off : Nat) (v : Word)
    (hwait : off = 0x04 → startsWithWait s.agenda = true) : Orderly (s.writeReg off v) := by
  obtain ⟨hwaits, hpolls, hbusyPhase, hoverrun, hconflict⟩ := hs
  obtain ⟨-, hbusy, -⟩ | ⟨hoff, -, h⟩ | ⟨-, h⟩ | ⟨-, h⟩ | ⟨-, h⟩ | ⟨-, h⟩ | ⟨-, h⟩ | ⟨-, h⟩ :=
    s.writeReg_cases off v
  case inl => rw [hidle] at hbusy; cases hbusy
  case inr.inl =>
    rw [h]
    exact ⟨hwaits, fun _ => pollsNext_of_startsWithWait (hwait hoff), by simp, hoverrun, hconflict⟩
  case inr.inr.inl =>
    rw [h]
    exact ⟨hwaits, hpolls, hbusyPhase, by simp [hoverrun], by simp [hconflict]⟩
  all_goals rw [h]; exact ⟨hwaits, hpolls, hbusyPhase, hoverrun, hconflict⟩

/-- A transaction of an idle orderly host. -/
theorem orderly_hostTransaction {s t : State} (hs : Orderly s) (hidle : s.busy = false)
    {tx : Transaction} (hwait : writesCmd (.host tx) = true → startsWithWait s.agenda = true)
    (h : hostTransaction tx s = .next t) : Orderly t := by
  obtain ⟨off, rfl⟩ | ⟨off, v, rfl, rfl⟩ | ⟨a, rfl⟩ | ⟨a, v, rfl⟩ := hostTransaction_cases tx s t h
  · exact ⟨hs.waits, hs.polls, hs.busyPhase, hs.noOverrun, hs.noConflict⟩
  · exact orderly_writeReg hs hidle off v fun hoff => hwait (by simp [writesCmd, hoff])
  · rw [s.hostReadByte_of_idle a hidle]
    exact ⟨hs.waits, hs.polls, hs.busyPhase, hs.noOverrun, hs.noConflict⟩
  · obtain ⟨hbusy, -⟩ | ⟨-, -, h⟩ | ⟨-, -, h⟩ := s.hostWriteByte_cases a v
    · rw [hidle] at hbusy; cases hbusy
    · rwa [h]
    · rw [h]
      exact ⟨hs.waits, hs.polls, hs.busyPhase, hs.noOverrun, hs.noConflict⟩

/-- A poll of an orderly host: it goes on exactly while the command is in progress. -/
theorem orderly_pollStatus {s : State} (hwaits : everyCmdWaits s.agenda = true)
    (hbusyPhase : s.busy = true ↔ s.phase ≠ .idle) (hoverrun : s.cmdOverrun = false)
    (hconflict : s.bufConflict = false) : Orderly s.pollStatus := by
  refine ⟨?_, fun hbusy => ?_, hbusyPhase, hoverrun, hconflict⟩
  · rw [State.pollStatus_agenda]
    split <;> simp [everyCmdWaits, writesCmd, hwaits]
  · rw [State.pollStatus_busy] at hbusy
    rw [State.pollStatus_agenda, State.statusWord_getLsbD_zero, hbusy]
    rfl

/-- Each move keeps an orderly host: while a command is in progress the next move is a poll, or the
engine's with a poll after it. -/
theorem orderly_takeTurn {s t : State} (hs : Orderly s) {turn : Turn} {rest : List Turn}
    (hagenda : s.agenda = turn :: rest) (h : takeTurn turn { s with agenda := rest } = .next t) :
    Orderly t := by
  have hpolls : s.busy = true → pollsNext (turn :: rest) = true := hagenda ▸ hs.polls
  have hwaits : everyCmdWaits (turn :: rest) = true := hagenda ▸ hs.waits
  rw [everyCmdWaits, Bool.and_eq_true] at hwaits
  cases turn with
  | engine =>
    exact orderly_engineStep h
      (orderly_tail hs hagenda fun hbusy => pollsNext_of_engine (hpolls hbusy))
  | host tx =>
    have hidle : s.busy = false := Bool.eq_false_iff.mpr fun hbusy => by cases hpolls hbusy
    refine orderly_hostTransaction (orderly_tail hs hagenda fun hbusy => ?_) hidle (fun hcmd => ?_) h
    · cases hpolls hbusy
    · simpa [hcmd] using hwaits.1
  | wait =>
    cases h
    exact orderly_pollStatus hwaits.2 hs.busyPhase hs.noOverrun hs.noConflict
  | reset => cases h; exact ⟨hwaits.2, nofun, by simp [State.resetEvent_eq, State.reset], rfl, rfl⟩
  | powerOn =>
    cases h
    exact ⟨hwaits.2, nofun, by simp [State.powerOnEvent_eq, State.resetEvent_eq, State.reset], rfl, rfl⟩

theorem orderly_step {s t : State} (hs : Orderly s) (h : step s = .next t) : Orderly t := by
  obtain ⟨-, hstep⟩ | ⟨turn, rest, hagenda, hstep⟩ := step_cases s <;> rw [hstep] at h
  · exact orderly_engineStep h hs
  · exact orderly_takeTurn hs hagenda h

theorem startsWithWait_append {moves : List Turn} (more : List Turn)
    (h : startsWithWait moves = true) : startsWithWait (moves ++ more) = true := by
  obtain ⟨rest, rfl⟩ := (startsWithWait_iff moves).mp h
  rfl

/-- The moves of a waiting host after those of one. -/
theorem everyCmdWaits_append {moves more : List Turn} (h : everyCmdWaits moves = true)
    (hmore : everyCmdWaits more = true) : everyCmdWaits (moves ++ more) = true := by
  induction moves with
  | nil => exact hmore
  | cons turn rest ih =>
    rw [everyCmdWaits, Bool.and_eq_true, Bool.or_eq_true] at h
    rw [List.cons_append, everyCmdWaits, Bool.and_eq_true, Bool.or_eq_true]
    exact ⟨h.1.imp_right (startsWithWait_append more), ih h.2⟩

theorem everyCmdWaits_byteWrites (a : Nat) (bytes : List Byte) :
    everyCmdWaits (byteWriteTurns a bytes) = true := by
  induction bytes generalizing a with
  | nil => rfl
  | cons v rest ih => simp [byteWriteTurns, everyCmdWaits, writesCmd, ih]

/-- A register write that is not to `CMD` needs no `wait`. -/
theorem everyCmdWaits_regWrite {reg : RegName} (v : Word) (h : reg ≠ .cmd) :
    everyCmdWaits [regWriteTurn reg v] = true := by
  cases reg with
  | cmd => exact absurd rfl h
  | _ => rfl

theorem everyCmdWaits_operand {reg : RegName} (v : Option Word) (h : reg ≠ .cmd) :
    everyCmdWaits (operandTurns reg v) = true := by
  cases v with
  | none => rfl
  | some v => exact everyCmdWaits_regWrite v h

/-- The moves of a line that writes `CMD` only through `op` (R78). -/
theorem everyCmdWaits_expand (line : HostLine) (h : lineWaits line = true) :
    everyCmdWaits line.expand = true := by
  cases line with
  | wr reg v => exact everyCmdWaits_regWrite v (of_decide_eq_true h)
  | rd reg => rfl
  | wb a bytes => exact everyCmdWaits_byteWrites a bytes
  | rb a => rfl
  | cmd i => cases h
  | wait => rfl
  | comment text => rfl
  | op i a b c =>
    exact everyCmdWaits_append (everyCmdWaits_append (everyCmdWaits_append
      (everyCmdWaits_operand a (by decide)) (everyCmdWaits_operand b (by decide)))
      (everyCmdWaits_operand c (by decide))) rfl
  | clr => rfl
  | load a bytes =>
    exact everyCmdWaits_append (everyCmdWaits_byteWrites a bytes) (everyCmdWaits_regWrite _ (by decide))

theorem everyCmdWaits_expandProgram (lines : List HostLine)
    (h : ∀ line ∈ lines, lineWaits line = true) : everyCmdWaits (expandProgram lines) = true := by
  induction lines with
  | nil => rfl
  | cons line rest ih =>
    rw [expandProgram, List.flatMap_cons]
    exact everyCmdWaits_append (everyCmdWaits_expand line (h line List.mem_cons_self))
      (ih fun later hlater => h later (List.mem_cons_of_mem _ hlater))

/-- Settles O52: each move keeps an orderly host, and a program's moves are its lines' in a row. -/
theorem waitingHostMeetsNoHazard : Obligations.WaitingHostMeetsNoHazard :=
  ⟨fun _ _ => orderly_step, everyCmdWaits_expandProgram⟩

end Sys2Proof.Machine
end

section
/-! PROOFS. How a pass of `RUN` moves: an iteration completes, or moves the cursor forward inside the
trimmed buffer and leaves the bytes before its frame; so every command completes
(spec/42_frame_scanner.md R152, R153, spec/10_state.md R43). -/

namespace Sys2Proof.Machine

/-- An iteration of `RUN` that goes on: the cursor moves forward, by a frame of at least 2 bytes if it
counts one, and stays in the trimmed buffer (R152). -/
structure Advances (s t : State) : Prop where
  state : t = { s with buf := t.buf, frameCount := t.frameCount, cursor := t.cursor }
  rises : s.cursor.toNat < t.cursor.toNat
  inside : t.cursor.toNat ≤ s.runLength
  buffer : s.buf.WritesBelow s.lc.toNat t.buf
  before : ∀ x, x < s.runPosition → t.buf.read x = s.buf.read x
  count : t.frameCount = s.frameCount ∨
    t.frameCount = s.frameCount + 1#32 ∧ s.cursor.toNat + 2 ≤ t.cursor.toNat

/-- A number of bytes up to the trimmed length fits a register. -/
theorem State.toNat_ofNat_of_le_runLength (s : State) {n : Nat} (h : n ≤ s.runLength) :
    (BitVec.ofNat 32 n).toNat = n := by
  have hlc : s.lc.toNat < 2 ^ 32 := s.lc.isLt
  rw [State.runLength_eq] at h
  rw [BitVec.toNat_ofNat, Nat.mod_eq_of_lt (by omega)]

theorem advances_resync (s : State) {p : Nat}
    (hfind : s.buf.find s.opLc (s.runPosition + 1) (min (s.runPosition + 1 + 4096) s.opLc) = some p) :
    Advances s { s with cursor := BitVec.ofNat 32 (p - s.trim.toNat) } := by
  obtain ⟨hfrom, hto, -, -⟩ := (Memory.find_some _ _ _ _ _).mp hfind
  rw [State.runPosition_eq] at hfrom hto
  rw [State.opLc_eq] at hto
  have hinside : p - s.trim.toNat ≤ s.runLength := by rw [State.runLength_eq]; omega
  have hcursor := s.toNat_ofNat_of_le_runLength hinside
  exact ⟨rfl, by rw [hcursor]; omega, by rwa [hcursor], .refl, fun _ _ => rfl, .inl rfl⟩

theorem advances_patch (s : State) {fl : Nat} (hfl : 2 ≤ fl) (hin : s.cursor.toNat + fl ≤ s.runLength) :
    Advances s { s with
      buf := s.buf.patchFrame s.opLc s.runPosition fl
      frameCount := s.frameCount + 1#32
      cursor := BitVec.ofNat 32 (s.cursor.toNat + fl) } := by
  have hcursor := s.toNat_ofNat_of_le_runLength hin
  exact ⟨rfl, by rw [hcursor]; omega, by rwa [hcursor],
    s.buf.patchFrame_writesBelow hfl (s.runPosition_add_le hfl hin),
    fun x hx => s.buf.read_patchFrame_other _ _ _ _ hfl (by omega) (by omega),
    .inr ⟨rfl, by rw [hcursor]; omega⟩⟩

/-- What an iteration of `RUN` can do: complete the pass, its count in `RESULT`, or advance. -/
theorem runIteration_completes_or_advances (s : State) :
    (∃ code, runIteration s = (s.setResult s.frameCount).complete code) ∨ Advances s (runIteration s) := by
  obtain ⟨-, h⟩ | ⟨-, ⟨-, ⟨-, h⟩ | ⟨p, hfind, h⟩⟩ | ⟨-, ⟨-, h⟩ | ⟨hin, h⟩⟩⟩ := runIteration_cases s
  case inl => exact .inl ⟨_, h⟩
  case inr.inl.inl => exact .inl ⟨_, h⟩
  case inr.inl.inr => exact .inr (h ▸ advances_resync s hfind)
  case inr.inr.inl => exact .inl ⟨_, h⟩
  case inr.inr.inr => exact .inr (h ▸ advances_patch s (s.buf.frameLength_bounds _ _).1 hin)

/-- Settles O44: a completing iteration keeps the pass's registers and `BUF`; another advances. -/
theorem runCursorOnlyMovesForward : Obligations.RunCursorOnlyMovesForward := by
  intro s t hphase hstep
  rw [exec_run_of_runLoop s hphase] at hstep
  obtain ⟨code, h⟩ | hadv := runIteration_completes_or_advances s
  case inl =>
    rw [h] at hstep
    cases hstep
    exact ⟨rfl, Nat.le_refl _, fun hgoes => absurd rfl hgoes, fun hcount => absurd rfl hcount, id,
      fun _ _ => rfl⟩
  case inr =>
    cases hstep
    refine ⟨by rw [hadv.state], hadv.rises.le, fun _ => hadv.rises, fun hcounted => ?_,
      fun _ => hadv.inside, fun x hx => hadv.before x ?_⟩
    · obtain hsame | ⟨-, hrise⟩ := hadv.count
      · exact absurd hsame hcounted
      · exact hrise
    · rw [State.runPosition_eq]; omega

/-- The step of a machine in RUN_LOOP with only the engine moving. -/
theorem step_of_runLoop (s : State) (hagenda : s.agenda = []) (hphase : s.phase = .runLoop) :
    step s = .next (runIteration s) := by
  rw [step_of_empty s hagenda, engineStep_of_runLoop s hphase, exec_run_of_runLoop s hphase]

/-- From inside its loop a pass completes within one step for each byte from the cursor to the trimmed
length and one more: each iteration that goes on leaves fewer of them (R153). -/
theorem runLoop_completes (s : State) (hagenda : s.agenda = []) (hphase : s.phase = .runLoop) :
    ∃ (n : Nat) (t : State), n ≤ s.runLength - s.cursor.toNat + 1 ∧
      Sys2Proof.core.run n s = .next t ∧ t.phase = .idle ∧ t.busy = false ∧ t.done = true := by
  induction hleft : s.runLength - s.cursor.toNat using Nat.strong_induction_on generalizing s with
  | _ left ih =>
    have hstep := step_of_runLoop s hagenda hphase
    obtain ⟨code, h⟩ | hadv := runIteration_completes_or_advances s
    case inl =>
      rw [h] at hstep
      exact ⟨1, _, by omega, core_run_succ 0 s _ hstep, rfl, rfl, rfl⟩
    case inr =>
      have hlength : (runIteration s).runLength = s.runLength := by rw [hadv.state]
      have hrises := hadv.rises
      have hinside := hadv.inside
      obtain ⟨n, t, hn, hrun, hdone⟩ := ih ((runIteration s).runLength - (runIteration s).cursor.toNat)
        (by omega) (runIteration s) (by rw [hadv.state]; exact hagenda)
        (by rw [hadv.state]; exact hphase) rfl
      exact ⟨n + 1, t, by omega, (core_run_succ n s _ hstep).trans hrun, hdone⟩

/-- Settles O46: an illegal word and every command that its step completes take one step; a pass that
goes on takes its seek step and the loop's. -/
theorem everyCommandCompletes : Obligations.EveryCommandCompletes := by
  intro s hagenda hphase
  have hempty := step_of_empty s hagenda
  obtain ⟨hidle, -⟩ | ⟨-, i, hdecode, hstep⟩ | ⟨-, e, -, hstep⟩ | ⟨hloop, -⟩ := engineStep_cases s
  case inl => rw [hphase] at hidle; cases hidle
  case inr.inr.inl =>
    exact ⟨1, _, by omega, fun _ => rfl, core_run_succ 0 s _ (hempty.trans hstep), rfl, rfl, rfl⟩
  case inr.inr.inr => rw [hphase] at hloop; cases hloop
  case inr.inl =>
    obtain ⟨t, ht, hdone | ⟨rfl, hloop⟩⟩ := exec_completes_or_loops i s
    all_goals have hstep' : step s = .next t := hempty.trans (hstep.trans ht)
    case inl => exact ⟨1, t, by omega, fun _ => rfl, core_run_succ 0 s t hstep', hdone.phase_idle⟩
    case inr =>
      have hcw : s.cw = encode .run := (decode_eq_ok_iff _ _).mp hdecode
      have hlength : t.runLength ≤ s.lc.toNat := by
        rw [hloop.state, State.runLength_eq]
        exact Nat.sub_le _ _
      obtain ⟨n, u, hn, hrun, hidle⟩ := runLoop_completes t (by rw [hloop.state]; exact hagenda)
        hloop.phase_runLoop.1
      exact ⟨n + 1, u, by omega, fun hne => absurd hcw hne, (core_run_succ n s t hstep').trans hrun,
        hidle⟩

end Sys2Proof.Machine
end

section
/-! PROOFS. The machine's invariant: it holds after reset and every move keeps it
(spec/10_state.md R26, R28, R33 to R35, R41, R42, spec/42_frame_scanner.md R152). -/

namespace Sys2Proof.Machine

open Safety

/-- A reset state with any legal capacity, and any buffer in canonical form inside it. -/
theorem inv_reset (cap : Nat) (m : Memory) (agenda : List Turn) (reply : Option Word)
    (hcap : 1 ≤ cap ∧ cap ≤ 2 ^ 29) (hwf : m.wf = true) (hin : m.within cap = true) :
    Inv { State.reset with cap := cap, buf := m, agenda := agenda, reply := reply } where
  canonical := hwf
  within := hin
  capLegal := hcap
  lenLegal := Nat.zero_le _
  lcLegal := Nat.zero_le _
  busyPhase := by simp [State.reset]
  busyClear := nofun
  untouched _ _ := ⟨rfl, rfl, rfl, rfl, rfl, rfl, rfl, rfl, rfl, rfl⟩
  lastOp := rfl
  loopIsRun := nofun
  runFresh := nofun
  cursorInBuffer := Nat.zero_le _
  cursorInRun := nofun
  countBound := Nat.le_refl _

/-- `BUF_CAP` is legal (spec/00_scope.md R6). -/
theorem bufCap_legal : 1 ≤ Config.bufCap ∧ Config.bufCap ≤ 2 ^ 29 :=
  ⟨Nat.le_add_left 1 _, Config.bufCapPred.isLt⟩

/-- Settles O18. -/
theorem resetStateMeetsInvariant : Obligations.ResetStateMeetsInvariant :=
  ⟨inv_reset Config.bufCap { cells := [], draw := 0 } [] none bufCap_legal (Memory.empty_wf 0)
    (Memory.empty_within 0 _), by decide, rfl⟩

/-- A change of the host's side keeps the invariant, if `LEN` stays inside the buffer. -/
theorem inv_of_sameEngine {s t : State} (hs : Inv s) (h : sameEngine s t) (hlen : t.len.toNat ≤ s.cap) :
    Inv t := by
  rw [h]
  exact ⟨hs.canonical, hs.within, hs.capLegal, hlen, hs.lcLegal, hs.busyPhase, hs.busyClear,
    hs.untouched, hs.lastOp, hs.loopIsRun, hs.runFresh, hs.cursorInBuffer, hs.cursorInRun,
    hs.countBound⟩

/-- A change of the buffer inside the capacity keeps the invariant. -/
theorem inv_setBuf {s : State} (hs : Inv s) (m : Memory) (hwf : m.wf = true)
    (hin : m.within s.cap = true) : Inv { s with buf := m } :=
  ⟨hwf, hin, hs.capLegal, hs.lenLegal, hs.lcLegal, hs.busyPhase, hs.busyClear, hs.untouched, hs.lastOp,
    hs.loopIsRun, hs.runFresh, hs.cursorInBuffer, hs.cursorInRun, hs.countBound⟩

/-- The engine's writes, which are below the latched length, keep the invariant. -/
theorem inv_writesBelow {s : State} (hs : Inv s) {m : Memory} (h : s.buf.WritesBelow s.lc.toNat m) :
    Inv { s with buf := m } :=
  inv_setBuf hs m (h.wf hs.canonical) (h.within hs.lcLegal hs.within)

/-- Completion keeps the invariant, whatever `RESULT` is (R181). -/
theorem inv_complete {s : State} (hs : Inv s) (r : Word) (code : OutcomeCode) :
    Inv ((s.setResult r).complete code) where
  canonical := hs.canonical
  within := hs.within
  capLegal := hs.capLegal
  lenLegal := hs.lenLegal
  lcLegal := hs.lcLegal
  busyPhase := by simp
  busyClear := nofun
  untouched := nofun
  lastOp := hs.lastOp
  loopIsRun := nofun
  runFresh := nofun
  cursorInBuffer := hs.cursorInBuffer
  cursorInRun := nofun
  countBound := hs.countBound

theorem inv_completes {i : Instr} {s t : State} (hs : Inv s) (h : Completes i s t) : Inv t := by
  rw [h.state]
  exact inv_complete (inv_writesBelow hs h.buffer) t.result t.outcome

/-- Acceptance keeps the invariant: `RUN` starts with its registers at 0, and another word keeps them
(R41). -/
theorem inv_accept {s : State} (hs : Inv s) (v : Word) : Inv (s.accept v) where
  canonical := hs.canonical
  within := hs.within
  capLegal := hs.capLegal
  lenLegal := hs.lenLegal
  lcLegal := hs.lenLegal
  busyPhase := by simp
  busyClear _ := ⟨rfl, rfl⟩
  untouched := nofun
  lastOp := rfl
  loopIsRun := nofun
  runFresh _ (hv : v = encode .run) := ⟨if_pos hv, if_pos hv, if_pos hv⟩
  cursorInBuffer := by
    rw [State.accept_trim, State.accept_cursor]
    split
    · exact Nat.zero_le _
    · exact hs.cursorInBuffer
  cursorInRun := nofun
  countBound := by
    rw [State.accept_frameCount, State.accept_cursor]
    split
    · exact Nat.le_refl _
    · exact hs.countBound

/-- The seek step that finds a marker: the pass starts there, its registers still at 0 (R150). -/
theorem inv_seek {s : State} (hs : Inv s) (hphase : s.phase = .exec) (hcw : s.cw = encode .run) {k : Nat}
    (hfind : s.buf.find s.opLc 0 s.opLc = some k) :
    Inv { s with trim := BitVec.ofNat 32 k, phase := .runLoop } := by
  obtain ⟨-, hk, -, -⟩ := (Memory.find_some _ _ _ _ _).mp hfind
  obtain ⟨-, -, hcursor⟩ := hs.runFresh hphase hcw
  have hlc : s.lc.toNat < 2 ^ 32 := s.lc.isLt
  have hcap := hs.lcLegal
  have hbusy : s.busy = true := hs.busyPhase.mpr (by simp [hphase])
  rw [State.opLc_eq] at hk hcap
  have htrim : (BitVec.ofNat 32 k).toNat = k := by rw [BitVec.toNat_ofNat, Nat.mod_eq_of_lt (by omega)]
  have hzero : s.cursor.toNat = 0 := by rw [hcursor]; rfl
  exact {
    hs with
    busyPhase := by simp [hbusy]
    untouched := fun hidle => by rw [hbusy] at hidle; cases hidle
    loopIsRun := fun _ => hcw
    runFresh := nofun
    cursorInBuffer := by change (BitVec.ofNat 32 k).toNat + s.cursor.toNat ≤ s.cap; omega
    cursorInRun := fun _ => by
      change (BitVec.ofNat 32 k).toNat + 1 < s.lc.toNat ∧
        (BitVec.ofNat 32 k).toNat + s.cursor.toNat ≤ s.lc.toNat
      omega }

/-- An iteration that goes on keeps the invariant: the cursor stays in the trimmed buffer, and a counted
frame moves it by at least 2 (R152, R34). -/
theorem inv_advances {s t : State} (hs : Inv s) (hphase : s.phase = .runLoop) (h : Advances s t) :
    Inv t := by
  obtain ⟨hstart, -⟩ := hs.cursorInRun hphase
  have hcount := hs.countBound
  have hcap := hs.lcLegal
  have hrises := h.rises
  have hinside := h.inside
  have hbusy : s.busy = true := hs.busyPhase.mpr (by simp [hphase])
  rw [State.runLength_eq] at hinside
  rw [State.opLc_eq] at hstart hcap
  have hcounted : 2 * t.frameCount.toNat ≤ t.cursor.toNat := by
    obtain hsame | ⟨hnext, htwo⟩ := h.count
    · rw [hsame]; omega
    · have hsucc : t.frameCount.toNat ≤ s.frameCount.toNat + 1 := by
        rw [hnext, BitVec.toNat_add]
        exact Nat.mod_le _ _
      omega
  have hbuf := inv_writesBelow hs h.buffer
  rw [h.state]
  exact {
    hbuf with
    untouched := fun hidle => by rw [hbusy] at hidle; cases hidle
    runFresh := fun hexec => by rw [hphase] at hexec; cases hexec
    cursorInBuffer := by change s.trim.toNat + t.cursor.toNat ≤ s.cap; omega
    cursorInRun := fun _ => by
      change s.trim.toNat + 1 < s.lc.toNat ∧ s.trim.toNat + t.cursor.toNat ≤ s.lc.toNat
      omega
    countBound := hcounted }

/-- The engine's step keeps the invariant. -/
theorem inv_engineStep {s t : State} (hs : Inv s) (h : engineStep s = .next t) : Inv t := by
  obtain ⟨-, heq⟩ | ⟨hphase, i, hdecode, heq⟩ | ⟨-, e, -, heq⟩ | ⟨hphase, heq⟩ := engineStep_cases s <;>
    rw [heq] at h
  case inl => cases h; exact hs
  case inr.inl =>
    obtain hdone | ⟨rfl, hloop⟩ := completes_or_loops_of_exec h
    · exact inv_completes hs hdone
    · rw [exec_run_of_exec s hphase] at h
      cases h
      obtain ⟨-, hnone⟩ | ⟨k, hfind, hfound⟩ := runSeek_cases s
      · rw [hnone]; exact inv_complete hs _ _
      · rw [hfound]; exact inv_seek hs hphase ((decode_eq_ok_iff _ _).mp hdecode) hfind
  case inr.inr.inl => cases h; exact inv_complete hs s.result _
  case inr.inr.inr =>
    rw [exec_run_of_runLoop s hphase] at h
    cases h
    obtain ⟨code, hdone⟩ | hadv := runIteration_completes_or_advances s
    · rw [hdone]; exact inv_complete hs _ _
    · exact inv_advances hs hphase hadv

/-- A register write keeps the invariant: `LEN` is clamped, and a command is accepted when idle. -/
theorem inv_writeReg {s : State} (hs : Inv s) (off : Nat) (v : Word) : Inv (s.writeReg off v) := by
  have hlen : (BitVec.ofNat 32 (min v.toNat s.cap)).toNat ≤ s.cap := by
    rw [BitVec.toNat_ofNat]
    exact (Nat.mod_le _ _).trans (Nat.min_le_right _ _)
  obtain ⟨-, -, h⟩ | ⟨-, -, h⟩ | ⟨-, h⟩ | ⟨-, h⟩ | ⟨-, h⟩ | ⟨-, h⟩ | ⟨-, h⟩ | ⟨-, h⟩ :=
    s.writeReg_cases off v <;> rw [h]
  case inr.inl => exact inv_accept hs v
  case inr.inr.inr.inl => exact inv_of_sameEngine hs rfl hlen
  all_goals exact inv_of_sameEngine hs rfl hs.lenLegal

theorem inv_hostTransaction {s t : State} (hs : Inv s) {tx : Transaction}
    (h : hostTransaction tx s = .next t) : Inv t := by
  obtain ⟨off, rfl⟩ | ⟨off, v, -, rfl⟩ | ⟨a, rfl⟩ | ⟨a, v, rfl⟩ := hostTransaction_cases tx s t h
  · exact inv_of_sameEngine hs rfl hs.lenLegal
  · exact inv_writeReg hs off v
  · have hsame := sameEngine_hostReadByte s a
    exact inv_of_sameEngine hs hsame (by rw [State.hostReadByte]; split <;> exact hs.lenLegal)
  · obtain ⟨-, h⟩ | ⟨-, -, h⟩ | ⟨-, ha, h⟩ := s.hostWriteByte_cases a v <;> rw [h]
    · exact inv_of_sameEngine hs rfl hs.lenLegal
    · exact hs
    · exact inv_setBuf hs _ (Memory.write_wf _ _ _ hs.canonical) (Memory.write_within _ _ hs.within ha)

theorem inv_takeTurn {s t : State} (hs : Inv s) {turn : Turn} (h : takeTurn turn s = .next t) :
    Inv t := by
  cases turn with
  | engine => exact inv_engineStep hs h
  | host tx => exact inv_hostTransaction hs h
  | wait => cases h; exact inv_of_sameEngine hs rfl hs.lenLegal
  | reset => cases h; exact inv_reset s.cap s.buf _ _ hs.capLegal hs.canonical hs.within
  | powerOn =>
    cases h
    exact inv_reset s.cap _ _ _ hs.capLegal (Memory.empty_wf _) (Memory.empty_within _ _)

/-- Settles O19: the engine's step and each move keep the invariant, and taking a move off the agenda
changes the host's side only. -/
theorem stepKeepsMachineInvariant : Obligations.StepKeepsMachineInvariant := by
  intro s t hs h
  obtain ⟨-, hstep⟩ | ⟨turn, rest, -, hstep⟩ := step_cases s <;> rw [hstep] at h
  · exact inv_engineStep hs h
  · have hrest : Inv { s with agenda := rest } := inv_of_sameEngine hs rfl hs.lenLegal
    exact inv_takeTurn hrest h

end Sys2Proof.Machine
end

section
/-! PROOFS. The buffer as data: the canonical form is unique, and writes at two addresses commute
(spec/10_state.md R39). -/

namespace Sys2Proof.Machine

/-- No address below the bound is listed. -/
theorem lookupCell_of_lt {lo : Nat} {cells : List Host.Cell} (h : risingFrom lo cells = true) {x : Nat}
    (hx : x < lo) : lookupCell cells x = none := by
  induction cells generalizing lo with
  | nil => rfl
  | cons cell rest ih =>
    obtain ⟨k, v⟩ := cell
    rw [risingFrom, Bool.and_eq_true, decide_eq_true_eq] at h
    rw [lookupCell, if_neg (by omega), ih h.2 (by omega)]

theorem lookupCell_cons_self (k : Nat) (v : Byte) (rest : List Host.Cell) :
    lookupCell ((k, v) :: rest) k = some v := if_pos rfl

/-- A rising list that lists the same byte as another at the other's first address starts no later. -/
theorem first_address_le {lo' k k' : Nat} {v v' : Byte} {rest rest' : List Host.Cell}
    (h' : risingFrom lo' ((k', v') :: rest') = true)
    (hsame : lookupCell ((k, v) :: rest) k = lookupCell ((k', v') :: rest') k) : k' ≤ k := by
  rw [risingFrom, Bool.and_eq_true, decide_eq_true_eq] at h'
  by_contra hlt
  have hnone : lookupCell ((k', v') :: rest') k = none := by
    rw [lookupCell, if_neg (by omega)]
    exact lookupCell_of_lt h'.2 (by omega)
  rw [lookupCell_cons_self, hnone] at hsame
  cases hsame

/-- Two rising lists that list the same byte at every address are the same list. -/
theorem cells_eq_of_lookupCell_eq {lo lo' : Nat} {cells cells' : List Host.Cell}
    (h : risingFrom lo cells = true) (h' : risingFrom lo' cells' = true)
    (hsame : ∀ x, lookupCell cells x = lookupCell cells' x) : cells = cells' := by
  induction cells generalizing lo lo' cells' with
  | nil =>
    cases cells' with
    | nil => rfl
    | cons cell' rest' =>
      have hfirst := hsame cell'.1
      rw [lookupCell_cons_self] at hfirst
      cases hfirst
  | cons cell rest ih =>
    obtain ⟨k, v⟩ := cell
    cases cells' with
    | nil =>
      have hfirst := hsame k
      rw [lookupCell_cons_self] at hfirst
      cases hfirst
    | cons cell' rest' =>
      obtain ⟨k', v'⟩ := cell'
      obtain rfl : k = k' := Nat.le_antisymm (first_address_le h (hsame k').symm)
        (first_address_le h' (hsame k))
      have hv : some v = some v' := by
        have hk := hsame k
        rwa [lookupCell_cons_self, lookupCell_cons_self] at hk
      cases hv
      rw [risingFrom, Bool.and_eq_true] at h h'
      have hrest : ∀ x, lookupCell rest x = lookupCell rest' x := by
        intro x
        by_cases hx : k = x
        · subst hx
          rw [lookupCell_of_lt h.2 (Nat.lt_succ_self k), lookupCell_of_lt h'.2 (Nat.lt_succ_self k)]
        · have hlater := hsame x
          rwa [lookupCell, lookupCell, if_neg hx, if_neg hx] at hlater
      rw [ih h.2 h'.2 hrest]

/-- Settles O21: the two cell lists agree from their first addresses on. -/
theorem canonicalBufferIsUnique : Obligations.CanonicalBufferIsUnique := by
  rintro ⟨cells, draw⟩ ⟨cells', draw'⟩ hwf hwf' hdraw hsame
  obtain rfl : draw = draw' := hdraw
  have hcells : cells = cells' := cells_eq_of_lookupCell_eq hwf hwf' hsame
  rw [hcells]

/-- Insertion puts a cell before a greater first address. -/
theorem insertCell_of_lt {k a : Nat} {w v : Byte} {rest : List Host.Cell} (h : a < k) :
    insertCell ((k, w) :: rest) a v = (a, v) :: (k, w) :: rest := if_pos h

theorem insertCell_self (a : Nat) (w v : Byte) (rest : List Host.Cell) :
    insertCell ((a, w) :: rest) a v = (a, v) :: rest := by
  rw [insertCell, if_neg (Nat.lt_irrefl a), if_pos rfl]

theorem insertCell_of_gt {k a : Nat} {w v : Byte} {rest : List Host.Cell} (h : k < a) :
    insertCell ((k, w) :: rest) a v = (k, w) :: insertCell rest a v := by
  rw [insertCell, if_neg (by omega), if_neg (by omega)]

/-- A second insertion at an address replaces the first, in any list. -/
theorem insertCell_insertCell_self (cells : List Host.Cell) (a : Nat) (v w : Byte) :
    insertCell (insertCell cells a v) a w = insertCell cells a w := by
  induction cells with
  | nil => exact insertCell_self a v w []
  | cons cell rest ih =>
    obtain ⟨k, u⟩ := cell
    obtain hlt | rfl | hgt := Nat.lt_trichotomy a k
    · rw [insertCell_of_lt hlt, insertCell_of_lt hlt, insertCell_self]
    · rw [insertCell_self, insertCell_self, insertCell_self]
    · rw [insertCell_of_gt hgt, insertCell_of_gt hgt, insertCell_of_gt hgt, ih]

/-- Insertions at two addresses commute, in any list. -/
theorem insertCell_comm (cells : List Host.Cell) {a b : Nat} (v w : Byte) (hab : a < b) :
    insertCell (insertCell cells a v) b w = insertCell (insertCell cells b w) a v := by
  induction cells with
  | nil => exact (insertCell_of_gt hab).trans (insertCell_of_lt hab).symm
  | cons cell rest ih =>
    obtain ⟨k, u⟩ := cell
    obtain hak | rfl | hka := Nat.lt_trichotomy a k
    · rw [insertCell_of_lt hak, insertCell_of_gt hab]
      obtain hbk | rfl | hkb := Nat.lt_trichotomy b k
      · rw [insertCell_of_lt hbk, insertCell_of_lt hab]
      · rw [insertCell_self, insertCell_of_lt hab]
      · rw [insertCell_of_gt hkb, insertCell_of_lt hak]
    · rw [insertCell_self, insertCell_of_gt hab, insertCell_of_gt hab, insertCell_self]
    · have hkb : k < b := by omega
      rw [insertCell_of_gt hka, insertCell_of_gt hkb, insertCell_of_gt hkb, insertCell_of_gt hka, ih]

/-- A second write at an address replaces the first. -/
theorem Memory.write_write_self (m : Memory) (a : Nat) (v w : Byte) :
    (m.write a v).write a w = m.write a w := by
  simp only [Memory.write, insertCell_insertCell_self]

/-- Writes at two addresses commute. -/
theorem Memory.write_comm (m : Memory) {a b : Nat} (v w : Byte) (hab : a < b) :
    (m.write a v).write b w = (m.write b w).write a v := by
  simp only [Memory.write, insertCell_comm _ v w hab]

end Sys2Proof.Machine
end

section
/-! PROOFS. The bits that `set_byte_at_bit` writes, in stream order, and bit fields as numbers: what is
written reads back, eight `set_bit` calls do the same, and each primitive repeats itself
(spec/40_bit_accessor.md sections 1 and 2, spec/20_memory.md R54, R55). -/

namespace Sys2Proof.Machine

/-- The mask of the low `8 - sh` bits of a byte, counted from the most significant. -/
theorem getMsbD_lowMask {sh j : Nat} (hj : j < 8) :
    (0xFF#8 >>> sh).getMsbD j = decide (sh ≤ j) := by
  have hones : ∀ k : Nat, (0xFF#8).getMsbD k = decide (k < 8) := by
    intro k
    rw [show (0xFF#8) = BitVec.allOnes 8 from rfl, BitVec.getMsbD_allOnes]
  rw [BitVec.getMsbD_ushiftRight, hones]
  by_cases h : sh ≤ j
  · simp [h, hj, Nat.not_lt.mpr h, show j - sh < 8 by omega]
  · simp [h, Nat.lt_of_not_le h]

/-- The first byte of a straddling write: the bits before the window, then the value's first ones. -/
theorem getMsbD_straddle_first (w v : Byte) {sh j : Nat} (hj : j < 8) :
    ((w &&& ~~~(0xFF#8 >>> sh)) ||| (v >>> sh)).getMsbD j =
      if sh ≤ j then v.getMsbD (j - sh) else w.getMsbD j := by
  rw [BitVec.getMsbD_or, BitVec.getMsbD_and, BitVec.getMsbD_not, getMsbD_lowMask hj,
    BitVec.getMsbD_ushiftRight]
  split <;> simp [*]

/-- The second byte of a straddling write: the value's last bits, then the bits after the window. -/
theorem getMsbD_straddle_second (w v : Byte) {sh j : Nat} (hj : j < 8) :
    ((w &&& (0xFF#8 >>> sh)) ||| (v <<< (8 - sh))).getMsbD j =
      if sh ≤ j then w.getMsbD j else v.getMsbD (j + (8 - sh)) := by
  rw [BitVec.getMsbD_or, BitVec.getMsbD_and, getMsbD_lowMask hj, BitVec.getMsbD_shiftLeft]
  by_cases h : sh ≤ j
  · rw [BitVec.getMsbD_of_ge _ _ (by omega : 8 ≤ j + (8 - sh))]; simp [h]
  · simp [h]

/-- The write of `set_byte_at_bit` at `o` is applied: its one byte, or both, are below `lc`. -/
def ByteWriteApplied (lc o : Nat) : Prop := if o % 8 = 0 then o / 8 < lc else o / 8 + 1 < lc

theorem ByteWriteApplied.of_aligned {lc o : Nat} (h : ByteWriteApplied lc o) (ho : o % 8 = 0) :
    o / 8 < lc := by
  rwa [ByteWriteApplied, if_pos ho] at h

theorem ByteWriteApplied.of_unaligned {lc o : Nat} (h : ByteWriteApplied lc o) (ho : o % 8 ≠ 0) :
    o / 8 + 1 < lc := by
  rwa [ByteWriteApplied, if_neg ho] at h

/-- A write that is not applied leaves the buffer as it is (R106). -/
theorem Memory.setByteAtBit_of_not_applied (m : Memory) {lc o : Nat} (v : Byte)
    (h : ¬ByteWriteApplied lc o) : m.setByteAtBit lc v o = m := by
  rw [ByteWriteApplied] at h
  simp only [Memory.setByteAtBit]
  split
  · rw [if_pos ‹_›] at h; rw [if_neg h]
  · rw [if_neg ‹_›] at h; rw [if_neg h]

theorem Memory.setByteAtBit_aligned (m : Memory) {lc o : Nat} (v : Byte) (ho : o % 8 = 0)
    (h : o / 8 < lc) : m.setByteAtBit lc v o = m.write (o / 8) v := by
  simp only [Memory.setByteAtBit, if_pos ho, if_pos h]

theorem Memory.setByteAtBit_unaligned (m : Memory) {lc o : Nat} (v : Byte) (ho : o % 8 ≠ 0)
    (h : o / 8 + 1 < lc) : m.setByteAtBit lc v o =
      (m.write (o / 8) ((m.read (o / 8) &&& ~~~(0xFF#8 >>> (o % 8))) ||| (v >>> (o % 8)))).write
        (o / 8 + 1) ((m.read (o / 8 + 1) &&& (0xFF#8 >>> (o % 8))) ||| (v <<< (8 - o % 8))) := by
  simp only [Memory.setByteAtBit, if_neg ho, if_pos h]

/-- Every bit of every byte after an applied write: the eight bits of the window are the value's, most
significant first, and every other bit is as it was. -/
theorem Memory.getMsbD_read_setByteAtBit (m : Memory) {lc o : Nat} (v : Byte)
    (h : ByteWriteApplied lc o) (x : Nat) {j : Nat} (hj : j < 8) :
    ((m.setByteAtBit lc v o).read x).getMsbD j =
      if o ≤ 8 * x + j ∧ 8 * x + j < o + 8 then v.getMsbD (8 * x + j - o)
      else (m.read x).getMsbD j := by
  by_cases ho : o % 8 = 0
  case pos =>
    rw [m.setByteAtBit_aligned v ho (h.of_aligned ho), Memory.read_write]
    by_cases hx : x = o / 8
    · rw [if_pos hx, if_pos (by omega), show 8 * x + j - o = j by omega]
    · rw [if_neg hx, if_neg (by omega)]
  case neg =>
    have hmod : o % 8 < 8 := Nat.mod_lt o (by decide)
    rw [m.setByteAtBit_unaligned v ho (h.of_unaligned ho), Memory.read_write, Memory.read_write]
    by_cases hsecond : x = o / 8 + 1
    · rw [if_pos hsecond, getMsbD_straddle_second _ _ hj, hsecond]
      by_cases hin : o % 8 ≤ j
      · rw [if_pos hin, if_neg (by omega)]
      · rw [if_neg hin, if_pos (by omega)]
        congr 1
        omega
    · rw [if_neg hsecond]
      by_cases hfirst : x = o / 8
      · rw [if_pos hfirst, getMsbD_straddle_first _ _ hj, hfirst]
        by_cases hin : o % 8 ≤ j
        · rw [if_pos hin, if_pos (by omega)]
          congr 1
          omega
        · rw [if_neg hin, if_neg (by omega)]
      · rw [if_neg hfirst, if_neg (by omega)]

/-- Settles O24: the window's bits if the write is applied, and no bit at all if it is skipped. -/
theorem setByteAtBitWritesEightBits : Obligations.SetByteAtBitWritesEightBits := by
  refine ⟨rfl, fun s => ⟨s.buf.setByteAtBit s.opLc s.opByteValue s.opBitOffset, exec_setByteAtBit s, ?_⟩⟩
  intro x j hj
  simp only [State.opLc_eq, State.opByteValue_eq, State.opBitOffset_eq]
  by_cases happlied : ByteWriteApplied s.lc.toNat s.a.toNat
  case pos =>
    rw [Memory.getMsbD_read_setByteAtBit _ _ happlied x hj]
    by_cases hin : s.a.toNat ≤ 8 * x + j ∧ 8 * x + j < s.a.toNat + 8
    · rw [if_pos hin, if_pos ⟨happlied, hin⟩, BitVec.getMsbD_eq_getLsbD, BitVec.getLsbD_extractLsb']
      simp [show 8 * x + j - s.a.toNat < 8 by omega, show 7 - (8 * x + j - s.a.toNat) < 8 by omega]
    · rw [if_neg hin, if_neg fun h => hin h.2]
  case neg =>
    rw [Memory.setByteAtBit_of_not_applied _ _ happlied, if_neg fun h => happlied h.1]

/-- A bit field is the number with its bits, most significant first (R55). -/
theorem Memory.field_eq_of_testBit (m : Memory) (lc o n : Nat) {value : Nat} (hlt : value < 2 ^ n)
    (hbits : ∀ j, j < n → m.getBit lc (o + j) = BitVec.ofBool (value.testBit (n - 1 - j))) :
    m.field lc o n = value := by
  induction n generalizing value with
  | zero => rw [Memory.field]; omega
  | succ n ih =>
    have hhalf : m.field lc o n = value / 2 := by
      refine ih (by omega) fun j hj => ?_
      rw [hbits j (by omega), Nat.testBit_div_two, show n + 1 - 1 - j = n - 1 - j + 1 by omega]
    have hlast : (m.getBit lc (o + n)).toNat = value % 2 := by
      rw [hbits n (by omega), Nat.add_sub_cancel, Nat.sub_self, Nat.testBit_zero]
      obtain h | h := Nat.mod_two_eq_zero_or_one value <;> simp [h]
    rw [Memory.field, hhalf, hlast]
    omega

/-- A bit field is the field of its first bits followed by the field of the rest. -/
theorem Memory.field_append (m : Memory) (lc o n k : Nat) :
    m.field lc o (n + k) = m.field lc o n * 2 ^ k + m.field lc (o + n) k := by
  induction k with
  | zero => simp [Memory.field]
  | succ k ih =>
    rw [← Nat.add_assoc, Memory.field, Memory.field, ih, Nat.pow_succ, Nat.add_assoc o n k]
    ring

/-- Bit `j` of byte `x` in stream order, both in range. -/
theorem Memory.getBit_in_byte (m : Memory) {lc x j : Nat} (hx : x < lc) (hj : j < 8) :
    m.getBit lc (8 * x + j) = BitVec.ofBool ((m.read x).getMsbD j) := by
  rw [Memory.getBit_eq, show (8 * x + j) / 8 = x by omega, show (8 * x + j) % 8 = j by omega, if_pos hx]

/-- A field inside one byte. -/
theorem Memory.field_in_byte (m : Memory) {lc x j n : Nat} (hx : x < lc) (hn : j + n ≤ 8) :
    m.field lc (8 * x + j) n = (m.read x).toNat / 2 ^ (8 - j - n) % 2 ^ n := by
  refine m.field_eq_of_testBit _ _ _ (Nat.mod_lt _ (Nat.two_pow_pos n)) fun i hi => ?_
  rw [Nat.add_assoc, m.getBit_in_byte hx (by omega), Nat.testBit_mod_two_pow, Nat.testBit_div_two_pow,
    BitVec.testBit_toNat, BitVec.getMsbD_eq_getLsbD]
  simp [show j + i < 8 by omega, show n - 1 - i < n by omega,
    show n - 1 - i + (8 - j - n) = 7 - (j + i) by omega]

/-- The bits of an applied write read back (R105). -/
theorem Memory.getBit_setByteAtBit (m : Memory) {lc o : Nat} (v : Byte) (h : ByteWriteApplied lc o)
    {j : Nat} (hj : j < 8) :
    (m.setByteAtBit lc v o).getBit lc (o + j) = BitVec.ofBool (v.getMsbD j) := by
  have hin : (o + j) / 8 < lc := by
    by_cases ho : o % 8 = 0
    · have := h.of_aligned ho; omega
    · have := h.of_unaligned ho; omega
  have hbit : (o + j) % 8 < 8 := Nat.mod_lt _ (by decide)
  rw [Memory.getBit_eq, if_pos hin, m.getMsbD_read_setByteAtBit v h _ hbit, if_pos (by omega),
    show 8 * ((o + j) / 8) + (o + j) % 8 - o = j by omega]

/-- Settles O25: the field by its eight bits, and the bit by the rule of `set_bit`. -/
theorem fieldReadsWhatWasWritten : Obligations.FieldReadsWhatWasWritten := by
  intro m lc o
  refine ⟨fun v happlied => ?byte, fun v hin => ?bit⟩
  case byte =>
    refine Memory.field_eq_of_testBit _ _ _ _ v.isLt fun j hj => ?_
    rw [m.getBit_setByteAtBit v happlied hj, BitVec.testBit_toNat, BitVec.getMsbD_eq_getLsbD,
      decide_eq_true hj, Bool.true_and]
  case bit =>
    rw [Memory.getBit_eq, if_pos hin, m.getMsbD_read_setBit lc v o _ (Nat.mod_lt o (by decide)),
      if_pos ⟨Nat.div_add_mod o 8, hin⟩]
    obtain rfl | rfl := BitVec.eq_zero_or_eq_one v <;> rfl

/-- The first `n` of the calls `set_bit(v[7 - j], o + j)`. -/
def Memory.setBits (m : Memory) (lc o : Nat) (v : Byte) (n : Nat) : Memory :=
  (List.range n).foldl (fun acc j => acc.setBit lc (BitVec.ofBool (v.getLsbD (7 - j))) (o + j)) m

theorem Memory.setBits_succ (m : Memory) (lc o : Nat) (v : Byte) (n : Nat) :
    m.setBits lc o v (n + 1) =
      (m.setBits lc o v n).setBit lc (BitVec.ofBool (v.getLsbD (7 - n))) (o + n) := by
  rw [Memory.setBits, List.range_succ, List.foldl_append]
  rfl

/-- Every bit after `n` of the calls. -/
theorem Memory.getMsbD_read_setBits (m : Memory) (lc o : Nat) (v : Byte) (n x : Nat) {j : Nat}
    (hj : j < 8) :
    ((m.setBits lc o v n).read x).getMsbD j =
      if (o ≤ 8 * x + j ∧ 8 * x + j < o + n) ∧ x < lc then v.getLsbD (7 - (8 * x + j - o))
      else (m.read x).getMsbD j := by
  induction n with
  | zero => rw [if_neg (by omega)]; rfl
  | succ n ih =>
    rw [Memory.setBits_succ, Memory.getMsbD_read_setBit _ _ _ _ _ hj, ih]
    by_cases hhit : 8 * x + j = o + n ∧ x < lc
    · rw [if_pos hhit, if_pos (by omega), hhit.1, Nat.add_sub_cancel_left]
      simp
    · rw [if_neg hhit]
      exact if_congr (by omega) rfl rfl

/-- Settles O26: an applied write and the eight calls set the same bits; the calls past the buffer's end
do nothing, which the tail case skips whole. -/
theorem setByteAtBitIsEightSetBits : Obligations.SetByteAtBitIsEightSetBits := by
  intro m lc o v m' hm'
  obtain rfl : m' = m.setBits lc o v 8 := hm'
  refine ⟨fun happlied x => BitVec.eq_of_getMsbD_eq fun j hj => ?applied, fun ho htail => ?tail⟩
  case applied =>
    have hwindow : o ≤ 8 * x + j ∧ 8 * x + j < o + 8 → x < lc := by
      by_cases ho : o % 8 = 0
      · have := ByteWriteApplied.of_aligned happlied ho; omega
      · have := ByteWriteApplied.of_unaligned happlied ho; omega
    rw [m.getMsbD_read_setByteAtBit v happlied x hj, m.getMsbD_read_setBits lc o v 8 x hj]
    by_cases hin : o ≤ 8 * x + j ∧ 8 * x + j < o + 8
    · rw [if_pos hin, if_pos ⟨hin, hwindow hin⟩, BitVec.getMsbD_eq_getLsbD]
      simp [show 8 * x + j - o < 8 by omega]
    · rw [if_neg hin, if_neg fun h => hin h.1]
  case tail =>
    have hskipped : ¬ByteWriteApplied lc o := fun h => by
      have := h.of_unaligned ho
      omega
    refine ⟨m.setByteAtBit_of_not_applied v hskipped, fun j hj => ?_⟩
    have hbyte : (o + j) / 8 = o / 8 := by omega
    rw [Memory.getBit_eq, if_pos (by omega), Memory.getMsbD_read_setBits _ _ _ _ _ _ (by omega),
      if_pos (by omega), show 8 * ((o + j) / 8) + (o + j) % 8 - o = j by omega]

/-- `set_bit` as one write, where its byte is in range. -/
theorem Memory.setBit_in_range (m : Memory) {lc o : Nat} (v : BitVec 1) (h : o / 8 < lc) :
    m.setBit lc v o = m.write (o / 8) ((m.setBit lc v o).read (o / 8)) := by
  rw [Memory.read_setBit, if_pos ⟨rfl, h⟩, Memory.setBit, if_pos h]
  split <;> rfl

theorem Memory.setBit_out_of_range (m : Memory) {lc o : Nat} (v : BitVec 1) (h : ¬o / 8 < lc) :
    m.setBit lc v o = m := by
  rw [Memory.setBit, if_neg h]

/-- The bytes after a second `set_bit` are those after the first. -/
theorem Memory.read_setBit_setBit (m : Memory) (lc : Nat) (v : BitVec 1) (o x : Nat) :
    ((m.setBit lc v o).setBit lc v o).read x = (m.setBit lc v o).read x := by
  refine BitVec.eq_of_getMsbD_eq fun j hj => ?_
  rw [Memory.getMsbD_read_setBit _ _ _ _ _ hj, m.getMsbD_read_setBit _ _ _ _ hj]
  split <;> rfl

theorem Memory.setBit_idem (m : Memory) (lc : Nat) (v : BitVec 1) (o : Nat) :
    (m.setBit lc v o).setBit lc v o = m.setBit lc v o := by
  by_cases h : o / 8 < lc
  case neg => rw [Memory.setBit_out_of_range _ _ h, Memory.setBit_out_of_range _ _ h]
  case pos =>
    have htwice := Memory.setBit_in_range (m.setBit lc v o) v h
    have honce := m.setBit_in_range v h
    rw [Memory.read_setBit_setBit] at htwice
    calc (m.setBit lc v o).setBit lc v o
        = (m.setBit lc v o).write (o / 8) ((m.setBit lc v o).read (o / 8)) := htwice
      _ = (m.write (o / 8) ((m.setBit lc v o).read (o / 8))).write (o / 8)
            ((m.setBit lc v o).read (o / 8)) := by rw [← honce]
      _ = m.setBit lc v o := by rw [Memory.write_write_self, ← honce]

/-- The bytes after a second applied `set_byte_at_bit` are those after the first. -/
theorem Memory.read_setByteAtBit_setByteAtBit (m : Memory) {lc o : Nat} (v : Byte)
    (h : ByteWriteApplied lc o) (x : Nat) :
    ((m.setByteAtBit lc v o).setByteAtBit lc v o).read x = (m.setByteAtBit lc v o).read x := by
  refine BitVec.eq_of_getMsbD_eq fun j hj => ?_
  rw [Memory.getMsbD_read_setByteAtBit _ _ h _ hj, m.getMsbD_read_setByteAtBit _ h _ hj]
  split <;> rfl

/-- An applied unaligned `set_byte_at_bit` as two writes of the bytes that it leaves. -/
theorem Memory.setByteAtBit_eq_writes (m : Memory) {lc o : Nat} (v : Byte) (ho : o % 8 ≠ 0)
    (h : o / 8 + 1 < lc) : m.setByteAtBit lc v o =
      (m.write (o / 8) ((m.setByteAtBit lc v o).read (o / 8))).write (o / 8 + 1)
        ((m.setByteAtBit lc v o).read (o / 8 + 1)) := by
  rw [m.setByteAtBit_unaligned v ho h, Memory.read_write_self,
    Memory.read_write_other _ _ (by omega : o / 8 ≠ o / 8 + 1), Memory.read_write_self]

/-- Two writes at two addresses, done twice, are done once. -/
theorem Memory.write_write_twice (m : Memory) (a : Nat) (v w : Byte) :
    (((m.write a v).write (a + 1) w).write a v).write (a + 1) w = (m.write a v).write (a + 1) w := by
  rw [Memory.write_comm _ v w (Nat.lt_succ_self a), Memory.write_write_self,
    ← Memory.write_comm _ v w (Nat.lt_succ_self a), Memory.write_write_self]

theorem Memory.setByteAtBit_idem (m : Memory) (lc : Nat) (v : Byte) (o : Nat) :
    (m.setByteAtBit lc v o).setByteAtBit lc v o = m.setByteAtBit lc v o := by
  by_cases happlied : ByteWriteApplied lc o
  case neg =>
    rw [Memory.setByteAtBit_of_not_applied _ _ happlied,
      Memory.setByteAtBit_of_not_applied _ _ happlied]
  case pos =>
    by_cases ho : o % 8 = 0
    case pos =>
      have hin := happlied.of_aligned ho
      rw [Memory.setByteAtBit_aligned _ _ ho hin, Memory.setByteAtBit_aligned _ _ ho hin,
        Memory.write_write_self]
    case neg =>
      have hin := happlied.of_unaligned ho
      have htwice := Memory.setByteAtBit_eq_writes (m.setByteAtBit lc v o) v ho hin
      have honce := m.setByteAtBit_eq_writes v ho hin
      rw [m.read_setByteAtBit_setByteAtBit v happlied, m.read_setByteAtBit_setByteAtBit v happlied]
        at htwice
      generalize (m.setByteAtBit lc v o).read (o / 8) = first at htwice honce
      generalize (m.setByteAtBit lc v o).read (o / 8 + 1) = second at htwice honce
      rw [htwice, honce, Memory.write_write_twice]

/-- Settles O27. -/
theorem primitivesAreIdempotent : Obligations.PrimitivesAreIdempotent := fun m lc o =>
  ⟨fun v => m.setBit_idem lc v o, fun v => m.setByteAtBit_idem lc v o⟩

end Sys2Proof.Machine
end

section
/-! PROOFS. The CRC-16 engine's algebra: the division step is linear, so the table-driven update is the
bitwise division; a range resumes at a cut, and a checksum appended leaves no remainder
(spec/41_crc_engine.md sections 1 to 3). -/

namespace Sys2Proof.Machine

/-- The division step by the top bit (R120). -/
theorem crcShift_eq (c : Crc) :
    crcShift c = if c.msb then (c <<< 1) ^^^ 0x8005#16 else c <<< 1 := by
  have htop : c &&& 0x8000#16 ≠ 0#16 ↔ c.msb = true := by
    rw [show (0x8000#16) = BitVec.twoPow 16 15 from rfl, BitVec.and_twoPow, BitVec.msb_eq_getLsbD_last]
    cases c.getLsbD 15 <;> decide
  simp only [crcShift, htop]

/-- The `n` division steps as an iterate. -/
theorem crcShifts_eq_iterate (n : Nat) (c : Crc) : crcShifts n c = crcShift^[n] c := by
  induction n generalizing c with
  | zero => rfl
  | succ n ih => rw [crcShifts, ih, Function.iterate_succ_apply]

/-- A byte in the upper half of a CRC value. -/
theorem setWidth_shiftLeft_eq_append (v : Byte) : v.setWidth 16 <<< 8 = v ++ 0#8 := by
  refine BitVec.eq_of_toNat_eq ?_
  have hv : v.toNat < 2 ^ 8 := v.isLt
  rw [BitVec.toNat_shiftLeft, BitVec.toNat_setWidth, BitVec.toNat_append, Nat.shiftLeft_eq,
    Nat.shiftLeft_eq]
  simp only [BitVec.toNat_ofNat, Nat.zero_mod, Nat.or_zero]
  omega

/-- The table's entry as eight division steps from the byte in the upper half. -/
theorem crcTableEntry_eq (v : Byte) : crcTableEntry v = crcShift^[8] (v ++ 0#8) := by
  rw [crcTableEntry, crcShifts_eq_iterate, setWidth_shiftLeft_eq_append]

/-- Settles O28: the entry is the loop's, each of whose steps tests the top bit. -/
theorem crcTableReadsTheRom : Obligations.CrcTableReadsTheRom := by
  refine ⟨rfl, fun s => ?_⟩
  have hstep : crcShift = fun c : Crc => if c.msb then (c <<< 1) ^^^ 0x8005#16 else c <<< 1 :=
    funext crcShift_eq
  rw [exec_crcTable, crcTableEntry_eq, State.opByteValue_eq, hstep]
  rfl

/-- The division step is linear. -/
theorem crcShift_xor (c d : Crc) : crcShift (c ^^^ d) = crcShift c ^^^ crcShift d := by
  simp only [crcShift_eq, BitVec.msb_xor, BitVec.shiftLeft_xor_distrib]
  generalize c <<< 1 = c'
  generalize d <<< 1 = d'
  cases c.msb <;> cases d.msb <;> simp only [Bool.xor_false, Bool.xor_true, Bool.not_false, Bool.not_true,
    Bool.false_eq_true, if_true, if_false]
  case false.true => rw [BitVec.xor_assoc]
  case true.false => rw [BitVec.xor_assoc, BitVec.xor_assoc, BitVec.xor_comm d']
  case true.true =>
    rw [BitVec.xor_assoc, BitVec.xor_comm d', ← BitVec.xor_assoc (0x8005#16), BitVec.xor_self,
      BitVec.zero_xor]

theorem crcShifts_xor (n : Nat) (c d : Crc) :
    crcShifts n (c ^^^ d) = crcShifts n c ^^^ crcShifts n d := by
  induction n generalizing c d with
  | zero => rfl
  | succ n ih => rw [crcShifts, crcShifts, crcShifts, crcShift_xor, ih]

/-- Steps that meet no top bit only shift. -/
theorem crcShifts_of_getMsbD_false (n : Nat) (c : Crc) (h : ∀ j, j < n → c.getMsbD j = false) :
    crcShifts n c = c <<< n := by
  induction n generalizing c with
  | zero => rw [crcShifts, BitVec.shiftLeft_zero]
  | succ n ih =>
    have htop : c.msb = false := by rw [BitVec.msb_eq_getMsbD_zero, h 0 (Nat.succ_pos n)]
    have hshift : crcShift c = c <<< 1 := by rw [crcShift_eq, htop, if_neg (by decide)]
    have hrest : ∀ j, j < n → (c <<< 1).getMsbD j = false := fun j hj => by
      rw [BitVec.getMsbD_shiftLeft, h (j + 1) (by omega)]
    rw [crcShifts, hshift, ih _ hrest, ← BitVec.shiftLeft_add, Nat.add_comm 1 n]

/-- Eight steps of a value whose upper half is zero only shift it. -/
theorem crcShifts_eight_low (low : Byte) : crcShifts 8 (0#8 ++ low) = low ++ 0#8 := by
  have hzeros : ∀ j, j < 8 → (0#8 ++ low).getMsbD j = false := fun j hj => by
    rw [BitVec.getMsbD_append, if_neg (by omega), BitVec.getMsbD_zero]
  have hwide : low.setWidth 16 = 0#8 ++ low := BitVec.setWidth_eq_append (by decide)
  rw [crcShifts_of_getMsbD_false 8 _ hzeros, ← setWidth_shiftLeft_eq_append, hwide]

/-- A CRC value is its two halves. -/
theorem crc_eq_append (c : Crc) : c = c.extractLsb' 8 8 ++ c.extractLsb' 0 8 := by
  have hjoin : c.extractLsb' 8 8 ++ c.extractLsb' 0 8 = c.extractLsb' 0 (8 + 8) :=
    BitVec.extractLsb'_append_extractLsb'_eq_extractLsb' rfl
  rw [hjoin, BitVec.extractLsb'_eq_self]

/-- One table-driven update is the byte into the upper half and eight division steps: the upper half goes
through the table, and the lower half only moves up. -/
theorem crcStep_eq_crcShifts (c : Crc) (b : Byte) :
    crcStep c b = crcShifts 8 (c ^^^ (b.setWidth 16 <<< 8)) := by
  have hsplit : c ^^^ (b ++ 0#8) =
      ((b ^^^ c.extractLsb' 8 8) ++ 0#8) ^^^ (0#8 ++ c.extractLsb' 0 8) := by
    conv_lhs => rw [crc_eq_append c]
    rw [BitVec.xor_append, BitVec.xor_append, BitVec.xor_zero, BitVec.xor_zero, BitVec.zero_xor,
      BitVec.xor_comm b]
  rw [crcStep_eq, setWidth_shiftLeft_eq_append, hsplit, crcShifts_xor, crcShifts_eight_low,
    crcTableEntry_eq, crcShifts_eq_iterate]

/-- Settles O33, by induction on the bytes. -/
theorem tableDrivenCrcIsBitwiseDivision : Obligations.TableDrivenCrcIsBitwiseDivision := by
  intro bytes
  induction bytes with
  | nil => intro c; rfl
  | cons b rest ih => intro c; rw [crcOf, crcBitwise, ih, crcStep_eq_crcShifts]

/-- `Compute` of a concatenation (R126). -/
theorem crcOf_append (first second : List Byte) (c : Crc) :
    crcOf (first ++ second) c = crcOf second (crcOf first c) := by
  rw [crcOf_eq_foldl, crcOf_eq_foldl, crcOf_eq_foldl, List.foldl_append]

/-- The CRC of a range resumes at a cut (R126). -/
theorem Memory.crcRange_cut (m : Memory) {first mid last : Nat} (init : Crc) (hfirst : first ≤ mid)
    (hlast : mid ≤ last) :
    m.crcRange first last init = m.crcRange mid last (m.crcRange first mid init) := by
  have hrange : List.range' first (last - first) =
      List.range' first (mid - first) ++ List.range' mid (last - mid) := by
    have happend := List.range'_append_1 (s := first) (m := mid - first) (n := last - mid)
    rw [show first + (mid - first) = mid by omega,
      show mid - first + (last - mid) = last - first by omega] at happend
    exact happend.symm
  simp only [Memory.crcRange_eq_foldl, hrange, List.map_append, List.foldl_append]

/-- `RESULT` of a CRC command carries its value back into `C` (R124, R125). -/
theorem extractLsb'_setWidth_crc (c : Crc) : (c.setWidth 32).extractLsb' 0 16 = c := by
  rw [setWidth_crc_eq_append]
  exact BitVec.extractLsb'_append_eq_right

/-- Settles O31: the second command starts from the first one's value, and the range is cut at `mid`. -/
theorem crcResumesAcrossACut : Obligations.CrcResumesAcrossACut := by
  refine ⟨crcOf_append, fun s t1 t2 t mid hfirst hlast hlc h1 h2 h => ?_⟩
  rw [exec_crcCompute] at h1 h2 h
  cases h1
  cases h2
  cases h
  simp only [State.complete_result, State.setResult_result, State.opByteIndex_eq, State.opEndIndex_eq,
    State.opLc_eq, State.opCrc_eq, extractLsb'_setWidth_crc, Nat.min_eq_left hlc,
    Nat.min_eq_left (hlast.trans hlc)]
  rw [← s.buf.crcRange_cut _ hfirst hlast]

theorem crcTableEntry_zero : crcTableEntry 0#8 = 0#16 := by decide

/-- A value's own two bytes, high first, take it to 0: each is cancelled against the upper half. -/
theorem crcOf_own_bytes (c : Crc) : crcOf [c.extractLsb' 8 8, c.extractLsb' 0 8] c = 0#16 := by
  have hupper : ∀ v : Byte, (v ++ 0#8).extractLsb' 8 8 = v := fun v =>
    BitVec.extractLsb'_append_eq_left
  have hlower : ∀ v : Byte, (v ++ 0#8).extractLsb' 0 8 = 0#8 := fun v =>
    BitVec.extractLsb'_append_eq_right
  have hhigh : crcStep c (c.extractLsb' 8 8) = c.extractLsb' 0 8 ++ 0#8 := by
    rw [crcStep_eq, BitVec.xor_self, crcTableEntry_zero, BitVec.zero_xor]
  have hlow : crcStep (c.extractLsb' 0 8 ++ 0#8) (c.extractLsb' 0 8) = 0#16 := by
    rw [crcStep_eq, hupper, hlower, BitVec.xor_self, crcTableEntry_zero]
    rfl
  rw [crcOf, crcOf, crcOf, hhigh, hlow]

/-- The CRC of a range that ends in its own checksum. -/
theorem Memory.crcRange_own_bytes (m : Memory) {first last : Nat} (c : Crc) (h : first ≤ last)
    (hcrc : c = m.crcRange first last 0#16) (hhigh : m.read last = c.extractLsb' 8 8)
    (hlow : m.read (last + 1) = c.extractLsb' 0 8) : m.crcRange first (last + 2) 0#16 = 0#16 := by
  rw [m.crcRange_cut _ h (Nat.le_add_right last 2), ← hcrc, m.crcRange_fold c (by omega),
    Nat.add_sub_cancel_left, Memory.bytes, Memory.bytes, Memory.bytes, hhigh, hlow, crcOf_own_bytes]

/-- The bytes that a frame's checksum covers are not those it is written to. -/
theorem Memory.read_patchFrame_before (m : Memory) (lc start fl x : Nat) (hx : x + 2 < start + fl) :
    (m.patchFrame lc start fl).read x = (m.mutate lc start).read x := by
  rw [Memory.patchFrame, Memory.read_writeChecksum, if_neg (by omega), if_neg (by omega)]

/-- The checksum of a patched frame is that of the patched bytes themselves (R145). -/
theorem Memory.patchCrc_eq (m : Memory) (lc start fl : Nat) :
    m.patchCrc lc start fl = (m.patchFrame lc start fl).crcRange (start + 2) (start + fl - 2) 0#16 := by
  have hsame := Memory.crcRange_congr (m.mutate lc start) (m.patchFrame lc start fl) 0 (start + 2)
    (start + fl - 2) 0#16 fun x _ hx => by
      rw [Nat.zero_add]
      exact m.read_patchFrame_before lc start fl x (by omega)
  rw [hsame, Nat.zero_add, Nat.zero_add]
  rfl

theorem Memory.read_patchFrame_high (m : Memory) (lc start : Nat) {fl : Nat} (hfl : 2 ≤ fl) :
    (m.patchFrame lc start fl).read (start + fl - 2) = (m.patchCrc lc start fl).extractLsb' 8 8 := by
  rw [Memory.patchFrame, Memory.read_writeChecksum, if_neg (by omega), if_pos rfl]
  rfl

theorem Memory.read_patchFrame_low (m : Memory) (lc start fl : Nat) :
    (m.patchFrame lc start fl).read (start + fl - 1) = (m.patchCrc lc start fl).extractLsb' 0 8 := by
  rw [Memory.patchFrame, Memory.read_writeChecksum, if_pos rfl]
  rfl

/-- Settles O32: both sequences end in the two bytes of the checksum of what stands before them. -/
theorem appendedChecksumZeroesRemainder : Obligations.AppendedChecksumZeroesRemainder := by
  refine ⟨fun bytes c hc => ?sequence, fun m lc start fl hfl _ => ?frame⟩
  case sequence => rw [crcOf_append, ← hc, crcOf_own_bytes]
  case frame =>
    have hcover := (m.patchFrame lc start fl).crcRange_own_bytes (first := start + 2)
      (last := start + fl - 2) _ (by omega) (m.patchCrc_eq lc start fl)
      (m.read_patchFrame_high lc start (by omega))
      (by rw [show start + fl - 2 + 1 = start + fl - 1 by omega]; exact m.read_patchFrame_low _ _ _)
    rwa [show start + fl - 2 + 2 = start + fl by omega] at hcover

end Sys2Proof.Machine
end

section
/-! PROOFS. The frame-size field, and the bytes that the mutation leaves, one by one
(spec/42_frame_scanner.md R142, R144, R157). -/

namespace Sys2Proof.Machine

/-- The frame-size field as the bit field at stream offset `8s + 21`: the low 3 bits of byte `s + 2`,
then byte `s + 3` (R142, spec/20_memory.md R55). -/
theorem Memory.toNat_frmsiz_eq_field (m : Memory) {lc start : Nat} (h : start + 3 < lc) :
    (m.frmsiz lc start).toNat = m.field lc (8 * start + 21) 11 := by
  have hlow : (m.read (start + 3)).toNat < 2 ^ 8 := (m.read (start + 3)).isLt
  have hfirst : m.field lc (8 * start + 21) 3 = (m.read (start + 2)).toNat % 8 := by
    rw [show 8 * start + 21 = 8 * (start + 2) + 5 by omega, m.field_in_byte (by omega) (by decide)]
    exact congrArg (· % 8) (Nat.div_one _)
  have hsecond : m.field lc (8 * start + 21 + 3) 8 = (m.read (start + 3)).toNat := by
    rw [show 8 * start + 21 + 3 = 8 * (start + 3) + 0 by omega, m.field_in_byte h (by decide)]
    exact (congrArg (· % 2 ^ 8) (Nat.div_one _)).trans (Nat.mod_eq_of_lt hlow)
  rw [m.field_append lc (8 * start + 21) 3 8, hfirst, hsecond, Memory.toNat_frmsiz, Memory.toNat_rd0,
    Memory.toNat_rd0, if_pos (by omega), if_pos h]
  rfl

/-- Settles O35: the rule's formula is the two fields appended, the bit field reads the same bits. -/
theorem frameSizeIsElevenBitField : Obligations.FrameSizeIsElevenBitField := by
  intro m lc start
  refine ⟨?formula, ?bound, m.toNat_frmsiz_eq_field⟩
  case formula =>
    have hmask : (m.rd0 lc (start + 2)).toNat &&& 0x07 = (m.rd0 lc (start + 2)).toNat % 8 :=
      Nat.and_two_pow_sub_one_eq_mod _ 3
    rw [Memory.frmsiz, BitVec.toNat_append, BitVec.extractLsb'_toNat, Nat.shiftRight_zero, hmask]
  case bound => exact Nat.le_of_lt_succ (m.frmsiz lc start).isLt

/-- The buffer with the frame's flag bit set, as `mutate` sets it: only where it reads 0 (R144). -/
def Memory.flagged (m : Memory) (lc start : Nat) : Memory :=
  if m.getBit lc (8 * start + 61) = 0#1 then m.setBit lc 1#1 (8 * start + 61) else m

/-- `mutate` as its three primitives. -/
theorem Memory.mutate_eq (m : Memory) (lc start : Nat) :
    m.mutate lc start = ((m.flagged lc start).setByteAtBit lc 0x68#8 (8 * start + 62)).setByteAtBit lc
      0x00#8 (8 * start + 70) := rfl

/-- Setting the flag where it is already set changes no byte. -/
theorem Memory.read_flagged (m : Memory) (lc start x : Nat) :
    (m.flagged lc start).read x =
      if x = start + 7 ∧ start + 7 < lc then m.read x ||| 0x04#8 else m.read x := by
  have hset : (m.setBit lc 1#1 (8 * start + 61)).read x =
      if x = start + 7 ∧ start + 7 < lc then m.read x ||| 0x04#8 else m.read x := by
    rw [Memory.read_setBit, if_pos rfl, show (8 * start + 61) / 8 = start + 7 by omega,
      show (8 * start + 61) % 8 = 5 by omega]
    rfl
  rw [Memory.flagged]
  split
  case isTrue => exact hset
  case isFalse hflag =>
    rw [← hset]
    refine BitVec.eq_of_getMsbD_eq fun j hj => ?_
    rw [Memory.getMsbD_read_setBit _ _ _ _ _ hj]
    by_cases hhit : 8 * x + j = 8 * start + 61 ∧ x < lc
    · rw [← hhit.1, m.getBit_in_byte hhit.2 hj] at hflag
      rw [if_pos hhit]
      cases hbit : (m.read x).getMsbD j
      · rw [hbit] at hflag; exact absurd rfl hflag
      · rfl
    · rw [if_neg hhit]

/-- The byte that `mutate` leaves where it found `w`: the rows of R157 by where the buffer ends. -/
def mutatedByte (lc start x : Nat) (w : Byte) : Byte :=
  if x = start + 7 ∧ start + 9 ≤ lc then (w &&& 0xF8#8) ||| 0x05#8
  else if x = start + 7 ∧ lc = start + 8 then w ||| 0x04#8
  else if x = start + 8 ∧ start + 10 ≤ lc then 0xA0#8
  else if x = start + 8 ∧ lc = start + 9 then 0xA0#8 ||| (w &&& 0x03#8)
  else if x = start + 9 ∧ start + 10 ≤ lc then w &&& 0x03#8
  else w

/-- Byte `start + 7` takes the flag and the channel map's first two bits. -/
theorem flag_channelMap_bits (w : Byte) :
    ((w ||| 0x04#8) &&& ~~~(0xFF#8 >>> 6)) ||| (0x68#8 >>> 6) = (w &&& 0xF8#8) ||| 0x05#8 := by
  revert w; decide

/-- Byte `start + 8` takes the rest of the first channel-map byte, and keeps its last two bits. -/
theorem channelMap_first_rest (w : Byte) :
    (w &&& (0xFF#8 >>> 6)) ||| (0x68#8 <<< 2) = 0xA0#8 ||| (w &&& 0x03#8) := by
  revert w; decide

/-- Then it takes the first two bits of the second channel-map byte. -/
theorem channelMap_second_bits (w : Byte) :
    ((0xA0#8 ||| (w &&& 0x03#8)) &&& ~~~(0xFF#8 >>> 6)) ||| (0x00#8 >>> 6) = 0xA0#8 := by
  revert w; decide

/-- Byte `start + 9` takes the rest of the second channel-map byte. -/
theorem channelMap_second_rest (w : Byte) : (w &&& (0xFF#8 >>> 6)) ||| (0x00#8 <<< 2) = w &&& 0x03#8 := by
  revert w; decide

/-- The first byte of a straddling write at bit 6 of byte `k`. -/
theorem Memory.read_setByteAtBit_six (m : Memory) (lc : Nat) (v : Byte) (k : Nat) :
    (m.setByteAtBit lc v (8 * k + 6)).read k =
      if k + 1 < lc then (m.read k &&& ~~~(0xFF#8 >>> 6)) ||| (v >>> 6) else m.read k := by
  rw [Memory.read_setByteAtBit, show (8 * k + 6) % 8 = 6 by omega, show (8 * k + 6) / 8 = k by omega,
    if_neg (by decide), if_neg (Nat.succ_ne_self k).symm, if_pos rfl]

/-- The second byte of a straddling write at bit 6 of byte `k`. -/
theorem Memory.read_setByteAtBit_six_succ (m : Memory) (lc : Nat) (v : Byte) (k : Nat) :
    (m.setByteAtBit lc v (8 * k + 6)).read (k + 1) =
      if k + 1 < lc then (m.read (k + 1) &&& (0xFF#8 >>> 6)) ||| (v <<< 2) else m.read (k + 1) := by
  rw [Memory.read_setByteAtBit, show (8 * k + 6) % 8 = 6 by omega, show (8 * k + 6) / 8 = k by omega,
    if_neg (by decide), if_pos rfl]

/-- `mutate` with its two channel-map writes at bit 6 of bytes `start + 7` and `start + 8`. -/
theorem Memory.mutate_eq_six (m : Memory) (lc start : Nat) :
    m.mutate lc start = ((m.flagged lc start).setByteAtBit lc 0x68#8 (8 * (start + 7) + 6)).setByteAtBit lc
      0x00#8 (8 * (start + 8) + 6) := by
  rw [Memory.mutate_eq, show 8 * start + 62 = 8 * (start + 7) + 6 by omega,
    show 8 * start + 70 = 8 * (start + 8) + 6 by omega]

theorem mutatedByte_seven_eq (lc start : Nat) (w : Byte) : mutatedByte lc start (start + 7) w =
    if start + 9 ≤ lc then (w &&& 0xF8#8) ||| 0x05#8
    else if lc = start + 8 then w ||| 0x04#8 else w := by
  simp [mutatedByte]

theorem mutatedByte_eight_eq (lc start : Nat) (w : Byte) : mutatedByte lc start (start + 8) w =
    if start + 10 ≤ lc then 0xA0#8
    else if lc = start + 9 then 0xA0#8 ||| (w &&& 0x03#8) else w := by
  simp [mutatedByte]

theorem mutatedByte_nine_eq (lc start : Nat) (w : Byte) : mutatedByte lc start (start + 9) w =
    if start + 10 ≤ lc then w &&& 0x03#8 else w := by
  simp [mutatedByte]

theorem mutatedByte_other (lc : Nat) {start x : Nat} (w : Byte) (h : x < start + 7 ∨ start + 10 ≤ x) :
    mutatedByte lc start x w = w := by
  simp [mutatedByte, show x ≠ start + 7 by omega, show x ≠ start + 8 by omega,
    show x ≠ start + 9 by omega]

/-- Byte `start + 7` after the mutation: the flag, and the first channel-map write where it is applied. -/
theorem Memory.read_mutate_seven (m : Memory) (lc start : Nat) :
    (m.mutate lc start).read (start + 7) = mutatedByte lc start (start + 7) (m.read (start + 7)) := by
  rw [Memory.mutate_eq_six, Memory.read_setByteAtBit_other _ _ _ _ _ (by omega),
    Memory.read_setByteAtBit_six, Memory.read_flagged, mutatedByte_seven_eq]
  obtain hin | rfl | hout : start + 9 ≤ lc ∨ lc = start + 8 ∨ lc < start + 8 := by omega
  · simp only [hin, show start + 7 + 1 < lc by omega, show start + 7 < lc by omega, and_self, if_true]
    exact flag_channelMap_bits _
  · simp
  · simp [show ¬start + 7 + 1 < lc by omega, show ¬start + 7 < lc by omega,
      show ¬start + 9 ≤ lc by omega, show lc ≠ start + 8 by omega]

/-- Byte `start + 8` after the mutation: both channel-map writes, where they are applied. -/
theorem Memory.read_mutate_eight (m : Memory) (lc start : Nat) :
    (m.mutate lc start).read (start + 8) = mutatedByte lc start (start + 8) (m.read (start + 8)) := by
  rw [Memory.mutate_eq_six, Memory.read_setByteAtBit_six, Memory.read_setByteAtBit_six_succ,
    Memory.read_flagged, if_neg (c := start + 8 = start + 7 ∧ _) (by omega), mutatedByte_eight_eq]
  obtain hin | rfl | hout : start + 10 ≤ lc ∨ lc = start + 9 ∨ lc < start + 9 := by omega
  · simp only [hin, show start + 8 + 1 < lc by omega, show start + 7 + 1 < lc by omega, if_true]
    rw [channelMap_first_rest, channelMap_second_bits]
  · simp only [Nat.lt_irrefl, show start + 7 + 1 < start + 9 by omega,
      show ¬start + 10 ≤ start + 9 by omega, if_true, if_false]
    exact channelMap_first_rest _
  · simp [show ¬start + 8 + 1 < lc by omega, show ¬start + 7 + 1 < lc by omega,
      show ¬start + 10 ≤ lc by omega, show lc ≠ start + 9 by omega]

/-- Byte `start + 9` after the mutation: the second channel-map write, where it is applied. -/
theorem Memory.read_mutate_nine (m : Memory) (lc start : Nat) :
    (m.mutate lc start).read (start + 9) = mutatedByte lc start (start + 9) (m.read (start + 9)) := by
  rw [Memory.mutate_eq_six, Memory.read_setByteAtBit_six_succ,
    Memory.read_setByteAtBit_other _ _ _ _ _ (by omega), Memory.read_flagged,
    if_neg (c := start + 8 + 1 = start + 7 ∧ _) (by omega), mutatedByte_nine_eq, channelMap_second_rest]
  exact if_congr (by omega) rfl rfl

/-- Each byte after the mutation (R144, R157). -/
theorem Memory.read_mutate (m : Memory) (lc start x : Nat) :
    (m.mutate lc start).read x = mutatedByte lc start x (m.read x) := by
  obtain hother | rfl | rfl | rfl :
    (x < start + 7 ∨ start + 10 ≤ x) ∨ x = start + 7 ∨ x = start + 8 ∨ x = start + 9 := by omega
  · rw [m.read_mutate_other lc start x (by omega), mutatedByte_other lc _ hother]
  · exact m.read_mutate_seven lc start
  · exact m.read_mutate_eight lc start
  · exact m.read_mutate_nine lc start

/-- Settles O37: the bytes by the rows of `mutatedByte`; a frame's length is even, so 9 bytes hold at
most 8 of it. -/
theorem mutationBytesUpToTheTail : Obligations.MutationBytesUpToTheTail := by
  refine ⟨fun m lc start x => m.read_mutate lc start x, fun m lc start hin htail => ?_⟩
  have heven := m.frameLength_even lc start
  omega

/-- Mutating a byte twice is mutating it once. -/
theorem mutatedByte_idem (lc start x : Nat) (w : Byte) :
    mutatedByte lc start x (mutatedByte lc start x w) = mutatedByte lc start x w := by
  have hfull : ∀ v : Byte, (((v &&& 0xF8#8) ||| 0x05#8) &&& 0xF8#8) ||| 0x05#8 = (v &&& 0xF8#8) ||| 0x05#8 :=
    by decide
  have hflag : ∀ v : Byte, v ||| 0x04#8 ||| 0x04#8 = v ||| 0x04#8 := by decide
  have hhalf : ∀ v : Byte, 0xA0#8 ||| ((0xA0#8 ||| (v &&& 0x03#8)) &&& 0x03#8) = 0xA0#8 ||| (v &&& 0x03#8) :=
    by decide
  have hlast : ∀ v : Byte, v &&& 0x03#8 &&& 0x03#8 = v &&& 0x03#8 := by decide
  simp only [mutatedByte]
  split_ifs
  · exact hfull w
  · exact hflag w
  · rfl
  · exact hhalf w
  · exact hlast w
  · rfl

/-- The mutated bytes of a frame whose three bytes are in the buffer. -/
theorem mutatedByte_seven {lc start : Nat} (w : Byte) (h : start + 9 ≤ lc) :
    mutatedByte lc start (start + 7) w = (w &&& 0xF8#8) ||| 0x05#8 := by
  rw [mutatedByte_seven_eq, if_pos h]

theorem mutatedByte_eight {lc start : Nat} (w : Byte) (h : start + 10 ≤ lc) :
    mutatedByte lc start (start + 8) w = 0xA0#8 := by
  rw [mutatedByte_eight_eq, if_pos h]

theorem mutatedByte_nine {lc start : Nat} (w : Byte) (h : start + 10 ≤ lc) :
    mutatedByte lc start (start + 9) w = w &&& 0x03#8 := by
  rw [mutatedByte_nine_eq, if_pos h]

end Sys2Proof.Machine
end

section
/-! PROOFS. What stands in the buffer after a frame's patch: its post-conditions for a frame of at least
12 bytes, the rows of shorter ones, and a second patch of the same frame
(spec/42_frame_scanner.md R148, R155, R156, R158). -/

namespace Sys2Proof.Machine

open Safety (FramePatched)

/-- A patched byte outside the checksum's two is the mutated one (R148). -/
theorem Memory.read_patchFrame_mutated (m : Memory) (lc start : Nat) {fl x : Nat}
    (hhigh : x ≠ start + fl - 2) (hlow : x ≠ start + fl - 1) :
    (m.patchFrame lc start fl).read x = mutatedByte lc start x (m.read x) := by
  rw [Memory.patchFrame, Memory.read_writeChecksum, if_neg hlow, if_neg hhigh, Memory.read_mutate]

/-- The two checksum bytes are the checksum that the patch returns. -/
theorem Memory.read_patchFrame_checksum (m : Memory) (lc start : Nat) {fl : Nat} (hfl : 2 ≤ fl) :
    (m.patchFrame lc start fl).read (start + fl - 2) ++ (m.patchFrame lc start fl).read (start + fl - 1) =
      m.patchCrc lc start fl := by
  rw [m.read_patchFrame_high lc start hfl, m.read_patchFrame_low, ← crc_eq_append]

/-- The checksum of a frame of at most 4 bytes covers none (R156). -/
theorem Memory.patchCrc_of_le_four (m : Memory) (lc start : Nat) {fl : Nat} (h : fl ≤ 4) :
    m.patchCrc lc start fl = 0#16 :=
  Memory.crcRange_empty _ _ (by omega)

/-- The checksum of a frame of at most 9 bytes covers no mutated byte (R156). -/
theorem Memory.patchCrc_of_le_nine (m : Memory) (lc start : Nat) {fl : Nat} (h : fl ≤ 9) :
    m.patchCrc lc start fl = m.crcRange (start + 2) (start + fl - 2) 0#16 := by
  have hsame := m.crcRange_congr (m.mutate lc start) 0 (start + 2) (start + fl - 2) 0#16 fun x _ hx => by
    rw [Nat.zero_add, m.read_mutate_other _ _ _ (by omega)]
  rwa [Nat.zero_add, Nat.zero_add] at hsame

/-- Only the two size bytes matter to the frame length (R143). -/
theorem Memory.frameLength_congr (m m' : Memory) (lc start : Nat)
    (h : ∀ x, start + 2 ≤ x → x ≤ start + 3 → m'.read x = m.read x) :
    m'.frameLength lc start = m.frameLength lc start := by
  rw [Memory.frameLength_eq, Memory.frameLength_eq, h _ (by omega) (by omega), h _ (by omega) (by omega)]

/-- The flag and the first two bits of the channel map, which a frame of at least 10 bytes keeps
(R155). -/
theorem Memory.patchFrame_flag (m : Memory) {lc start fl : Nat} (hfl : 10 ≤ fl) (hin : start + fl ≤ lc) :
    (m.patchFrame lc start fl).getBit lc (8 * start + 61) = 1#1 ∧
      (m.patchFrame lc start fl).field lc (8 * start + 62) 2 = 0b01 := by
  have hbyte : (m.patchFrame lc start fl).read (start + 7) =
      (m.read (start + 7) &&& 0xF8#8) ||| 0x05#8 := by
    rw [m.read_patchFrame_mutated lc start (by omega) (by omega), mutatedByte_seven _ (by omega)]
  have hflag : ∀ w : Byte, ((w &&& 0xF8#8) ||| 0x05#8).getMsbD 5 = true := by decide
  have hmap : ∀ w : Byte, ((w &&& 0xF8#8) ||| 0x05#8).toNat / 2 ^ (8 - 6 - 2) % 2 ^ 2 = 0b01 := by decide
  constructor
  · rw [show 8 * start + 61 = 8 * (start + 7) + 5 by omega, Memory.getBit_in_byte _ (by omega) (by decide),
      hbyte, hflag]
    rfl
  · rw [show 8 * start + 62 = 8 * (start + 7) + 6 by omega, Memory.field_in_byte _ (by omega) (by decide),
      hbyte, hmap]

/-- The whole channel map, which a frame of at least 12 bytes keeps (R155): two bits, a byte and six
bits. -/
theorem Memory.patchFrame_channelMap (m : Memory) {lc start fl : Nat} (hfl : 12 ≤ fl)
    (hin : start + fl ≤ lc) :
    (m.patchFrame lc start fl).field lc (8 * start + 62) 16 = 0x6800 := by
  obtain ⟨-, hfirst⟩ := m.patchFrame_flag (show 10 ≤ fl by omega) hin
  have hmiddle : (m.patchFrame lc start fl).field lc (8 * start + 62 + 2) 8 = 0xA0 := by
    rw [show 8 * start + 62 + 2 = 8 * (start + 8) + 0 by omega,
      Memory.field_in_byte _ (by omega) (by decide),
      m.read_patchFrame_mutated lc start (by omega) (by omega), mutatedByte_eight _ (by omega)]
    rfl
  have hlast : (m.patchFrame lc start fl).field lc (8 * start + 62 + 2 + 8) 6 = 0 := by
    have hzero : ∀ w : Byte, (w &&& 0x03#8).toNat / 2 ^ (8 - 0 - 6) % 2 ^ 6 = 0 := by decide
    rw [show 8 * start + 62 + 2 + 8 = 8 * (start + 9) + 0 by omega,
      Memory.field_in_byte _ (by omega) (by decide),
      m.read_patchFrame_mutated lc start (by omega) (by omega), mutatedByte_nine _ (by omega), hzero]
  have hrest : (m.patchFrame lc start fl).field lc (8 * start + 62 + 2) (8 + 6) = 0xA0 * 2 ^ 6 + 0 := by
    rw [Memory.field_append, hmiddle, hlast]
  calc (m.patchFrame lc start fl).field lc (8 * start + 62) (2 + (8 + 6))
      = (m.patchFrame lc start fl).field lc (8 * start + 62) 2 * 2 ^ (8 + 6) +
          (m.patchFrame lc start fl).field lc (8 * start + 62 + 2) (8 + 6) := Memory.field_append _ _ _ _ _
    _ = 0b01 * 2 ^ (8 + 6) + (0xA0 * 2 ^ 6 + 0) := by rw [hfirst, hrest]
    _ = 0x6800 := rfl

/-- The post-conditions of a frame's patch (R155). -/
theorem Memory.framePatched_patchFrame (m : Memory) {lc start fl : Nat} (hfl : 12 ≤ fl)
    (hin : start + fl ≤ lc) : FramePatched m (m.patchFrame lc start fl) lc start fl where
  flag := (m.patchFrame_flag (by omega) hin).1
  channelMap := m.patchFrame_channelMap hfl hin
  checksum := by rw [m.read_patchFrame_checksum lc start (by omega), m.patchCrc_eq]
  frame x hmutated hchecksum := m.read_patchFrame_other lc start fl x (by omega) (by omega) (by omega)

/-- What a step of `FRAME_PATCH` that is known to answer `t` leaves (R148). -/
theorem framePatch_cases_of_exec {s t : State} (h : exec .framePatch s = .next t) :
    (s.lc.toNat < s.a.toNat + s.buf.frameLength s.lc.toNat s.a.toNat ∧ t.outcome = .truncated ∧
      t.buf = s.buf ∧ t.result = 0#16 ++ BitVec.ofNat 16 (s.buf.frameLength s.lc.toNat s.a.toNat)) ∨
    (s.a.toNat + s.buf.frameLength s.lc.toNat s.a.toNat ≤ s.lc.toNat ∧ t.outcome = .ok ∧
      t.buf = s.buf.patchFrame s.lc.toNat s.a.toNat (s.buf.frameLength s.lc.toNat s.a.toNat) ∧
      t.result = s.buf.patchCrc s.lc.toNat s.a.toNat (s.buf.frameLength s.lc.toNat s.a.toNat) ++
        BitVec.ofNat 16 (s.buf.frameLength s.lc.toNat s.a.toNat)) := by
  obtain hpast | hin := Nat.lt_or_ge s.lc.toNat (s.a.toNat + s.buf.frameLength s.lc.toNat s.a.toNat)
  · rw [exec_framePatch_truncated s rfl hpast] at h
    cases h
    exact .inl ⟨hpast, rfl, rfl, rfl⟩
  · rw [exec_framePatch_patched s rfl hin] at h
    cases h
    exact .inr ⟨hin, rfl, rfl, rfl⟩

/-- A step of `FRAME_PATCH` that completes OK has patched a frame inside the buffer. -/
theorem framePatch_of_ok {s t : State} (h : exec .framePatch s = .next t) (hok : t.outcome = .ok) :
    s.a.toNat + s.buf.frameLength s.lc.toNat s.a.toNat ≤ s.lc.toNat ∧
      t.buf = s.buf.patchFrame s.lc.toNat s.a.toNat (s.buf.frameLength s.lc.toNat s.a.toNat) ∧
      t.result = s.buf.patchCrc s.lc.toNat s.a.toNat (s.buf.frameLength s.lc.toNat s.a.toNat) ++
        BitVec.ofNat 16 (s.buf.frameLength s.lc.toNat s.a.toNat) := by
  obtain ⟨-, htruncated, -⟩ | ⟨hin, -, hbuf, hresult⟩ := framePatch_cases_of_exec h
  · rw [hok] at htruncated; cases htruncated
  · exact ⟨hin, hbuf, hresult⟩

/-- An iteration of `RUN` that counts a frame has patched one inside the buffer. -/
theorem runIteration_of_counted (s : State) (h : (runIteration s).frameCount ≠ s.frameCount) :
    s.runPosition + s.buf.frameLength s.opLc s.runPosition ≤ s.opLc ∧
      (runIteration s).buf =
        s.buf.patchFrame s.opLc s.runPosition (s.buf.frameLength s.opLc s.runPosition) := by
  obtain ⟨-, heq⟩ | ⟨-, ⟨-, ⟨-, heq⟩ | ⟨p, -, heq⟩⟩ | ⟨-, ⟨-, heq⟩ | ⟨hin, heq⟩⟩⟩ := runIteration_cases s
  case inr.inr.inr =>
    exact ⟨s.runPosition_add_le (s.buf.frameLength_bounds _ _).1 hin, by rw [heq]⟩
  all_goals rw [heq] at h; exact absurd rfl h

/-- Settles O39: a patch's post-conditions, by either command; and of a 10-byte frame what its checksum
does not overwrite. -/
theorem patchedFramePostconditions : Obligations.PatchedFramePostconditions := by
  refine ⟨fun s t h hok hfl => ?framePatch, fun s t hphase h hcounted hfl => ?run,
    fun s t h hok hfl => ?tenBytes⟩
  case framePatch =>
    obtain ⟨hin, hbuf, -⟩ := framePatch_of_ok h hok
    rw [hbuf]
    exact s.buf.framePatched_patchFrame hfl hin
  case run =>
    rw [exec_run_of_runLoop s hphase] at h
    cases h
    obtain ⟨hin, hbuf⟩ := runIteration_of_counted s hcounted
    rw [hbuf]
    exact s.buf.framePatched_patchFrame hfl hin
  case tenBytes =>
    obtain ⟨hin, hbuf, -⟩ := framePatch_of_ok h hok
    rw [hfl] at hin hbuf
    obtain ⟨hflag, hmap⟩ := s.buf.patchFrame_flag (Nat.le_refl 10) hin
    rw [hbuf]
    exact ⟨hflag, hmap, (s.buf.read_patchFrame_checksum _ _ (by decide)).trans (s.buf.patchCrc_eq _ _ _)⟩

/-- A patched frame of 4 bytes has its size field zeroed by its own checksum (R156). -/
theorem Memory.frameLength_patchFrame_four (m : Memory) (lc start : Nat) :
    (m.patchFrame lc start 4).frameLength lc start = 2 := by
  have hhigh : (m.patchFrame lc start 4).read (start + 2) = 0#8 := by
    rw [← show start + 4 - 2 = start + 2 by omega, m.read_patchFrame_high lc start (by decide),
      m.patchCrc_of_le_four lc start (Nat.le_refl 4)]
    rfl
  have hlow : (m.patchFrame lc start 4).read (start + 3) = 0#8 := by
    rw [← show start + 4 - 1 = start + 3 by omega, m.read_patchFrame_low,
      m.patchCrc_of_le_four lc start (Nat.le_refl 4)]
    rfl
  rw [Memory.frameLength_eq, hhigh, hlow]
  split <;> split <;> rfl

/-- A patch of a frame of at most 4 bytes zeroes the frame's last two bytes (R156). -/
theorem Memory.read_patchFrame_zeroed (m : Memory) (lc start : Nat) {fl : Nat} (hfl : 2 ≤ fl)
    (hfour : fl ≤ 4) : (m.patchFrame lc start fl).read (start + fl - 2) = 0#8 ∧
      (m.patchFrame lc start fl).read (start + fl - 1) = 0#8 := by
  rw [m.read_patchFrame_high lc start hfl, m.read_patchFrame_low, m.patchCrc_of_le_four lc start hfour]
  exact ⟨rfl, rfl⟩

/-- Settles O40: each row by the patch's two checksum bytes and its mutated ones. -/
theorem shortFramesOverwriteAsTabled : Obligations.ShortFramesOverwriteAsTabled := by
  rintro s t p fl n rfl hfl hn h hok hroom
  obtain ⟨-, hbuf, hresult⟩ := framePatch_of_ok h hok
  have hsize : fl = 2 * n + 2 := by rw [hfl, hn, Memory.frameLength]
  rw [← hfl] at hbuf hresult
  rw [hbuf]
  clear h hok hfl hn hbuf
  refine ⟨?two, ?four, ?six, ?mutated, ?eight, ?ten⟩
  case two =>
    rintro rfl
    rw [s.buf.patchCrc_of_le_four _ _ (by decide)] at hresult
    exact ⟨by omega, hresult,
      s.buf.read_patchFrame_zeroed s.lc.toNat s.a.toNat (fl := 2) (by decide) (by decide)⟩
  case four =>
    rintro rfl
    obtain ⟨hhigh, hlow⟩ :=
      s.buf.read_patchFrame_zeroed s.lc.toNat s.a.toNat (fl := 4) (by decide) (by decide)
    rw [s.buf.patchCrc_of_le_four _ _ (by decide)] at hresult
    exact ⟨by omega, hresult, hhigh, hlow, s.buf.frameLength_patchFrame_four _ _⟩
  case six =>
    rintro rfl
    exact ⟨by omega, (s.buf.read_patchFrame_checksum s.lc.toNat s.a.toNat (fl := 6) (by decide)).trans
      (s.buf.patchCrc_of_le_nine _ _ (by decide))⟩
  case mutated =>
    intro hshort
    rw [s.buf.read_patchFrame_mutated _ _ (by omega) (by omega),
      s.buf.read_patchFrame_mutated _ _ (by omega) (by omega),
      s.buf.read_patchFrame_mutated _ _ (by omega) (by omega)]
    exact ⟨mutatedByte_seven _ (by omega), mutatedByte_eight _ hroom, mutatedByte_nine _ hroom⟩
  case eight =>
    rintro rfl
    have hmap : (s.buf.patchFrame s.lc.toNat s.a.toNat 8).read (s.a.toNat + 8) = 0xA0#8 := by
      rw [s.buf.read_patchFrame_mutated _ _ (by omega) (by omega), mutatedByte_eight _ hroom]
    have hlast : (s.buf.patchFrame s.lc.toNat s.a.toNat 8).read (s.a.toNat + 9) =
        s.buf.read (s.a.toNat + 9) &&& 0x03#8 := by
      rw [s.buf.read_patchFrame_mutated _ _ (by omega) (by omega), mutatedByte_nine _ hroom]
    refine ⟨by omega, (s.buf.read_patchFrame_checksum s.lc.toNat s.a.toNat (fl := 8) (by decide)).trans
      (s.buf.patchCrc_of_le_nine _ _ (by decide)), hmap, hlast, ?_⟩
    rw [Memory.marker_eq_false_iff_bytes _ (by omega), hmap]
    exact fun hmarker => absurd hmarker.1 (by decide)
  case ten =>
    rintro rfl
    refine ⟨by omega, ?_, (s.buf.read_patchFrame_checksum s.lc.toNat s.a.toNat (fl := 10) (by decide)).trans
      (s.buf.patchCrc_eq _ _ _)⟩
    rw [s.buf.read_patchFrame_mutated _ _ (by omega) (by omega), mutatedByte_seven _ (by omega)]

/-- A frame's length survives its patch, but for a frame of 4 bytes (R158). -/
theorem Memory.frameLength_patchFrame (m : Memory) (lc start : Nat) {fl : Nat}
    (hfl : fl = m.frameLength lc start) (hfour : fl ≠ 4) :
    (m.patchFrame lc start fl).frameLength lc start = fl := by
  obtain ⟨htwo, -⟩ := m.frameLength_bounds lc start
  have heven := m.frameLength_even lc start
  rw [← hfl] at htwo heven
  rw [m.frameLength_congr (m.patchFrame lc start fl) lc start fun x hfrom hto =>
    m.read_patchFrame_other lc start fl x htwo (by omega) (by omega), hfl]

/-- Outside the checksum's two bytes the mutation of a patched frame changes no byte. -/
theorem Memory.read_mutate_patchFrame (m : Memory) (lc start : Nat) {fl x : Nat}
    (hhigh : x ≠ start + fl - 2) (hlow : x ≠ start + fl - 1) :
    ((m.patchFrame lc start fl).mutate lc start).read x = (m.mutate lc start).read x := by
  rw [Memory.read_mutate, m.read_patchFrame_mutated lc start hhigh hlow, mutatedByte_idem,
    ← Memory.read_mutate]

/-- A second patch of the same length finds the same checksum: it covers none of its own bytes. -/
theorem Memory.patchCrc_patchFrame (m : Memory) (lc start fl : Nat) :
    (m.patchFrame lc start fl).patchCrc lc start fl = m.patchCrc lc start fl := by
  have hsame := (m.mutate lc start).crcRange_congr ((m.patchFrame lc start fl).mutate lc start) 0
    (start + 2) (start + fl - 2) 0#16 fun x _ hx => by
      rw [Nat.zero_add, m.read_mutate_patchFrame lc start (by omega) (by omega)]
  rw [Nat.zero_add, Nat.zero_add] at hsame
  exact hsame

/-- A second patch of the same length leaves every byte as the first did (R158). -/
theorem Memory.read_patchFrame_patchFrame (m : Memory) (lc start : Nat) {fl : Nat} (hfl : 2 ≤ fl)
    (x : Nat) :
    ((m.patchFrame lc start fl).patchFrame lc start fl).read x = (m.patchFrame lc start fl).read x := by
  by_cases hhigh : x = start + fl - 2
  case pos =>
    rw [hhigh, Memory.read_patchFrame_high _ _ _ hfl, Memory.read_patchFrame_high _ _ _ hfl,
      Memory.patchCrc_patchFrame]
  case neg =>
    by_cases hlow : x = start + fl - 1
    case pos =>
      rw [hlow, Memory.read_patchFrame_low, Memory.read_patchFrame_low, Memory.patchCrc_patchFrame]
    case neg =>
      rw [Memory.read_patchFrame_mutated _ _ _ hhigh hlow, m.read_patchFrame_mutated _ _ hhigh hlow,
        mutatedByte_idem]

/-- A step leaves the latched operands as they are (R72). -/
theorem exec_latches {i : Instr} {s t : State} (h : exec i s = .next t) : t.a = s.a ∧ t.lc = s.lc := by
  rw [exec_engineFrame h]
  exact ⟨rfl, rfl⟩

/-- Settles O41: a truncated frame stays one, a patched frame keeps its length and so its patch, and a
4-byte frame has become one of 2 bytes. -/
theorem framePatchIsIdempotent : Obligations.FramePatchIsIdempotent := by
  intro s t u ht hu
  have hsecond := framePatch_cases_of_exec hu
  obtain ⟨ha, hlc⟩ := exec_latches ht
  obtain ⟨htwo, -⟩ := s.buf.frameLength_bounds s.lc.toNat s.a.toNat
  rw [ha, hlc] at hsecond
  obtain ⟨hpast, houtcome, hbuf, hresult⟩ | ⟨hin, houtcome, hbuf, hresult⟩ := framePatch_cases_of_exec ht
  case inl =>
    rw [hbuf] at hsecond
    refine ⟨fun _ => ?_, fun hfour hfits => by omega⟩
    obtain ⟨-, houtcome', hbuf', hresult'⟩ | ⟨hin, -⟩ := hsecond
    · exact ⟨hresult'.trans hresult.symm, houtcome'.trans houtcome.symm, fun x => by rw [hbuf', hbuf]⟩
    · exact absurd hin (Nat.not_le.mpr hpast)
  case inr =>
    refine ⟨fun hne => ?same, fun hfour hfits => ?four⟩
    case same =>
      have hlength := s.buf.frameLength_patchFrame s.lc.toNat s.a.toNat rfl hne
      rw [hbuf, hlength] at hsecond
      obtain ⟨hpast, -⟩ | ⟨-, houtcome', hbuf', hresult'⟩ := hsecond
      · exact absurd hin (Nat.not_le.mpr hpast)
      · rw [Memory.patchCrc_patchFrame] at hresult'
        refine ⟨hresult'.trans hresult.symm, houtcome'.trans houtcome.symm, fun x => ?_⟩
        rw [hbuf', hbuf, Memory.read_patchFrame_patchFrame _ _ _ htwo]
    case four =>
      have hlength := s.buf.frameLength_patchFrame_four s.lc.toNat s.a.toNat
      rw [hbuf, hfour, hlength] at hsecond
      obtain ⟨hpast, -⟩ | ⟨-, -, hbuf', hresult'⟩ := hsecond
      · omega
      · rw [Memory.patchCrc_of_le_four _ _ _ (by decide)] at hresult'
        rw [hbuf']
        exact ⟨hresult', Memory.read_patchFrame_zeroed _ s.lc.toNat s.a.toNat (fl := 2) (by decide)
          (by decide)⟩

end Sys2Proof.Machine
end

section
/-! PROOFS. What a buffer shows from an offset on decides what every function of the engine answers there:
so bytes past the length do not matter, and a pass in place is the pass over a trimmed copy
(spec/20_memory.md R50, spec/40_bit_accessor.md R104, spec/42_frame_scanner.md R154). -/

namespace Sys2Proof.Machine

/-- Below `lc` the buffer `m'` shows the bytes of `m` from `k` on. -/
def Memory.Shows (k lc : Nat) (m m' : Memory) : Prop := ∀ x, x < lc → m'.read x = m.read (k + x)

namespace Memory.Shows
variable {k lc : Nat} {m m' : Memory}

theorem rd0 (h : Shows k lc m m') (a : Nat) : m'.rd0 lc a = m.rd0 (k + lc) (k + a) := by
  rw [Memory.rd0, Memory.rd0]
  by_cases ha : a < lc
  · rw [if_pos ha, if_pos (by omega), h a ha]
  · rw [if_neg ha, if_neg (by omega)]

theorem frameLength (h : Shows k lc m m') (start : Nat) :
    m'.frameLength lc start = m.frameLength (k + lc) (k + start) := by
  rw [Memory.frameLength, Memory.frameLength, Memory.frmsiz, Memory.frmsiz, h.rd0, h.rd0]
  rfl

theorem getBit (h : Shows k lc m m') (o : Nat) : m'.getBit lc o = m.getBit (k + lc) (8 * k + o) := by
  rw [Memory.getBit_eq, Memory.getBit_eq, show (8 * k + o) / 8 = k + o / 8 by omega,
    show (8 * k + o) % 8 = o % 8 by omega]
  by_cases ho : o / 8 < lc
  · rw [if_pos ho, if_pos (by omega), h _ ho]
  · rw [if_neg ho, if_neg (by omega)]

theorem marker (h : Shows k lc m m') (a : Nat) : m'.marker lc a = m.marker (k + lc) (k + a) := by
  rw [Bool.eq_iff_iff, Memory.marker_iff, Memory.marker_iff, Nat.add_assoc k a 1, Nat.add_lt_add_iff_left]
  refine and_congr_right fun ha => ?_
  rw [h a (by omega), h (a + 1) ha]

theorem findWithin (h : Shows k lc m m') (n a : Nat) :
    m.findWithin (k + lc) n (k + a) = (m'.findWithin lc n a).map (k + ·) := by
  induction n generalizing a with
  | zero => rfl
  | succ n ih =>
    rw [Memory.findWithin, Memory.findWithin, ← h.marker a]
    split
    · rfl
    · exact ih (a + 1)

/-- A search finds the same position, `k` further on. -/
theorem find (h : Shows k lc m m') (a lim : Nat) :
    m.find (k + lc) (k + a) (k + lim) = (m'.find lc a lim).map (k + ·) := by
  rw [Memory.find, Memory.find, show k + lim - 1 - (k + a) = lim - 1 - a by omega, h.findWithin]

theorem crcRange (h : Shows k lc m m') (first : Nat) {last : Nat} (init : Crc) (hlast : last ≤ lc) :
    m'.crcRange first last init = m.crcRange (k + first) (k + last) init :=
  m.crcRange_congr m' k first last init fun x _ hx => h x (by omega)

theorem setBit (h : Shows k lc m m') (v : BitVec 1) (o : Nat) :
    Shows k lc (m.setBit (k + lc) v (8 * k + o)) (m'.setBit lc v o) := by
  intro x hx
  refine BitVec.eq_of_getMsbD_eq fun j hj => ?_
  rw [Memory.getMsbD_read_setBit _ _ _ _ _ hj, Memory.getMsbD_read_setBit _ _ _ _ _ hj, h x hx]
  exact if_congr (by omega) rfl rfl

theorem setByteAtBit (h : Shows k lc m m') (v : Byte) (o : Nat) :
    Shows k lc (m.setByteAtBit (k + lc) v (8 * k + o)) (m'.setByteAtBit lc v o) := by
  have hsame : ByteWriteApplied (k + lc) (8 * k + o) ↔ ByteWriteApplied lc o := by
    rw [ByteWriteApplied, ByteWriteApplied, show (8 * k + o) / 8 = k + o / 8 by omega,
      show (8 * k + o) % 8 = o % 8 by omega]
    split <;> omega
  intro x hx
  by_cases happlied : ByteWriteApplied lc o
  case pos =>
    refine BitVec.eq_of_getMsbD_eq fun j hj => ?_
    rw [Memory.getMsbD_read_setByteAtBit _ _ happlied _ hj,
      Memory.getMsbD_read_setByteAtBit _ _ (hsame.mpr happlied) _ hj, h x hx,
      show 8 * (k + x) + j - (8 * k + o) = 8 * x + j - o by omega]
    exact if_congr (by omega) rfl rfl
  case neg =>
    rw [Memory.setByteAtBit_of_not_applied _ _ happlied,
      Memory.setByteAtBit_of_not_applied _ _ fun h' => happlied (hsame.mp h'), h x hx]

/-- The mutation, `k` further on. -/
theorem mutate (h : Shows k lc m m') (start : Nat) :
    Shows k lc (m.mutate (k + lc) (k + start)) (m'.mutate lc start) := by
  intro x hx
  rw [Memory.mutate_eq_six, Memory.mutate_eq_six]
  have hflagged : Shows k lc (m.flagged (k + lc) (k + start)) (m'.flagged lc start) := by
    rw [Memory.flagged, Memory.flagged, h.getBit, ← Nat.add_assoc, ← Nat.mul_add]
    split
    · rw [Nat.mul_add, Nat.add_assoc]; exact h.setBit _ _
    · exact h
  have hwritten := (hflagged.setByteAtBit 0x68#8 (8 * (start + 7) + 6)).setByteAtBit 0x00#8
    (8 * (start + 8) + 6) x hx
  rwa [show 8 * k + (8 * (start + 7) + 6) = 8 * (k + start + 7) + 6 by omega,
    show 8 * k + (8 * (start + 8) + 6) = 8 * (k + start + 8) + 6 by omega] at hwritten

/-- A frame's checksum, `k` further on. -/
theorem patchCrc (h : Shows k lc m m') {start fl : Nat} (hfl : 2 ≤ fl) (hin : start + fl ≤ lc) :
    m'.patchCrc lc start fl = m.patchCrc (k + lc) (k + start) fl := by
  have hrange := (h.mutate start).crcRange (start + 2) (last := start + fl - 2) Config.crcInitFrame (by omega)
  rwa [show k + (start + 2) = k + start + 2 by omega,
    show k + (start + fl - 2) = k + start + fl - 2 by omega] at hrange

/-- A frame's patch, `k` further on. -/
theorem patchFrame (h : Shows k lc m m') {start fl : Nat} (hfl : 2 ≤ fl) (hin : start + fl ≤ lc) :
    Shows k lc (m.patchFrame (k + lc) (k + start) fl) (m'.patchFrame lc start fl) := by
  intro x hx
  by_cases hhigh : x = start + fl - 2
  case pos =>
    rw [show k + x = k + start + fl - 2 by omega, hhigh, Memory.read_patchFrame_high _ _ _ hfl,
      Memory.read_patchFrame_high _ _ _ hfl, h.patchCrc hfl hin]
  case neg =>
    by_cases hlow : x = start + fl - 1
    case pos =>
      rw [show k + x = k + start + fl - 1 by omega, hlow, Memory.read_patchFrame_low,
        Memory.read_patchFrame_low, h.patchCrc hfl hin]
    case neg =>
      rw [Memory.read_patchFrame_mutated _ _ _ hhigh hlow,
        Memory.read_patchFrame_mutated _ _ _ (by omega) (by omega), ← Memory.read_mutate,
        ← Memory.read_mutate, h.mutate start x hx]

end Memory.Shows

/-- The state `t` runs the pass of `s` over the bytes from `k` on: its length and its trim are `k` less,
its cursor and its count are the same. -/
structure SamePass (k : Nat) (s t : State) : Prop where
  trim : s.trim.toNat = k + t.trim.toNat
  length : s.lc.toNat = k + t.lc.toNat
  bytes : s.buf.Shows k t.lc.toNat t.buf
  cursor : t.cursor = s.cursor
  frameCount : t.frameCount = s.frameCount

theorem SamePass.runLength {k : Nat} {s t : State} (h : SamePass k s t) : t.runLength = s.runLength := by
  rw [State.runLength_eq, State.runLength_eq, h.trim, h.length]
  omega

theorem SamePass.runPosition {k : Nat} {s t : State} (h : SamePass k s t) :
    s.runPosition = k + t.runPosition := by
  rw [State.runPosition_eq, State.runPosition_eq, h.trim, h.cursor]
  omega

/-- The search for the next marker finds it `k` further on. -/
theorem SamePass.find {k : Nat} {s t : State} (h : SamePass k s t) :
    s.buf.find s.opLc (s.runPosition + 1) (min (s.runPosition + 1 + 4096) s.opLc) =
      (t.buf.find t.opLc (t.runPosition + 1) (min (t.runPosition + 1 + 4096) t.opLc)).map (k + ·) := by
  have hshift := h.bytes.find (t.runPosition + 1) (min (t.runPosition + 1 + 4096) t.lc.toNat)
  rw [State.opLc_eq, State.opLc_eq, h.runPosition, h.length, Nat.add_assoc k, ← hshift]
  congr 1
  omega

/-- Both iterations take the same way: they complete with one outcome, or leave the same cursor, the same
count and buffers that show the same. -/
theorem SamePass.runIteration {k : Nat} {s t : State} (h : SamePass k s t) :
    (∃ code, runIteration s = (s.setResult s.frameCount).complete code ∧
      runIteration t = (t.setResult t.frameCount).complete code) ∨
    ∃ m m' c fc, runIteration s = { s with buf := m, frameCount := fc, cursor := c } ∧
      runIteration t = { t with buf := m', frameCount := fc, cursor := c } ∧
      m.Shows k t.lc.toNat m' := by
  have hlength : s.runLength - s.cursor.toNat = t.runLength - t.cursor.toNat := by
    rw [h.runLength, h.cursor]
  have hmarker : s.buf.marker s.opLc s.runPosition = t.buf.marker t.opLc t.runPosition := by
    rw [State.opLc_eq, h.runPosition, h.length]
    exact (h.bytes.marker _).symm
  have hframe : s.buf.frameLength s.opLc s.runPosition = t.buf.frameLength t.opLc t.runPosition := by
    rw [State.opLc_eq, h.runPosition, h.length]
    exact (h.bytes.frameLength _).symm
  obtain ⟨hend, heq⟩ | ⟨hmore, ⟨hlost, ⟨hfind, heq⟩ | ⟨p, hfind, heq⟩⟩ | ⟨hmark, ⟨hpast, heq⟩ | ⟨hin, heq⟩⟩⟩
    := runIteration_cases t
  case inl => exact .inl ⟨_, runIteration_done s (by omega), heq⟩
  case inr.inl.inl =>
    exact .inl ⟨_, runIteration_exhausted s (by omega) (hmarker.trans hlost) (by rw [h.find, hfind]; rfl),
      heq⟩
  case inr.inl.inr =>
    have hfind' := h.find
    rw [hfind] at hfind'
    refine .inr ⟨s.buf, t.buf, BitVec.ofNat 32 (p - t.trim.toNat), s.frameCount, ?_,
      by rw [heq, h.frameCount], h.bytes⟩
    rw [runIteration_resync s (by omega) (hmarker.trans hlost) hfind', h.trim,
      Nat.add_sub_add_left]
  case inr.inr.inl =>
    refine .inl ⟨_, runIteration_truncated s (by omega) (hmarker.trans hmark) ?_, heq⟩
    rw [hframe, ← h.runLength, ← h.cursor]
    exact hpast
  case inr.inr.inr =>
    have htwo : 2 ≤ t.buf.frameLength t.opLc t.runPosition := (t.buf.frameLength_bounds _ _).1
    have hshows := h.bytes.patchFrame htwo (t.runPosition_add_le htwo hin)
    rw [← h.length, ← h.runPosition] at hshows
    refine .inr ⟨_, _, _, _, ?_, by rw [heq, h.frameCount, h.cursor], hshows⟩
    rw [← hframe]
    refine (runIteration_patched s (by omega) (hmarker.trans hmark) ?_).trans ?_
    · rw [hframe, ← h.runLength, ← h.cursor]
      exact hin
    · rfl

end Sys2Proof.Machine
end

section
/-! PROOFS. The engine on a second buffer that agrees below the length answers the same
(spec/20_memory.md R50, spec/40_bit_accessor.md R104). -/

namespace Sys2Proof.Machine

/-- Two buffers that agree below `lc`. -/
abbrev Memory.AgreesBelow (lc : Nat) (m m' : Memory) : Prop := Memory.Shows 0 lc m m'

namespace Memory.AgreesBelow
variable {lc : Nat} {m m' : Memory} (h : AgreesBelow lc m m')
include h

theorem getBit_eq (o : Nat) : m'.getBit lc o = m.getBit lc o := by
  simpa only [Nat.mul_zero, Nat.zero_add] using Shows.getBit h o

theorem frameLength_eq (start : Nat) : m'.frameLength lc start = m.frameLength lc start := by
  simpa only [Nat.zero_add] using Shows.frameLength h start

theorem find_eq (a lim : Nat) : m'.find lc a lim = m.find lc a lim := by
  have hshift := Shows.find h a lim
  simp only [Nat.zero_add, Option.map_id'] at hshift
  exact hshift.symm

theorem crcRange_eq (first : Nat) {last : Nat} (init : Crc) (hlast : last ≤ lc) :
    m'.crcRange first last init = m.crcRange first last init := by
  simpa only [Nat.zero_add] using Shows.crcRange h first init hlast

theorem setBit (v : BitVec 1) (o : Nat) : AgreesBelow lc (m.setBit lc v o) (m'.setBit lc v o) := by
  simpa only [Nat.mul_zero, Nat.zero_add] using Shows.setBit h v o

theorem setByteAtBit (v : Byte) (o : Nat) :
    AgreesBelow lc (m.setByteAtBit lc v o) (m'.setByteAtBit lc v o) := by
  simpa only [Nat.mul_zero, Nat.zero_add] using Shows.setByteAtBit h v o

theorem patchCrc_eq {start fl : Nat} (hfl : 2 ≤ fl) (hin : start + fl ≤ lc) :
    m'.patchCrc lc start fl = m.patchCrc lc start fl := by
  simpa only [Nat.zero_add] using Shows.patchCrc h hfl hin

theorem patchFrame {start fl : Nat} (hfl : 2 ≤ fl) (hin : start + fl ≤ lc) :
    AgreesBelow lc (m.patchFrame lc start fl) (m'.patchFrame lc start fl) := by
  simpa only [Nat.zero_add] using Shows.patchFrame h hfl hin

end Memory.AgreesBelow

/-- The step of `i` at `s`, which answers `t`, answers the same on the buffer `m`, but for the buffer,
which agrees below the length. -/
def SameOnBuffer (i : Instr) (s t : State) (m : Memory) : Prop :=
  ∃ m', exec i { s with buf := m } = .next { t with buf := m' } ∧ t.buf.AgreesBelow s.lc.toNat m'

section
variable {s t : State} {m : Memory} (h : s.buf.AgreesBelow s.lc.toNat m)
include h

theorem sameOnBuffer_getBit (hstep : exec .getBit s = .next t) : SameOnBuffer .getBit s t m := by
  cases hstep
  refine ⟨m, ?_, h⟩
  rw [exec_getBit, h.getBit_eq]
  rfl

theorem sameOnBuffer_crcCompute (hstep : exec .crcCompute s = .next t) :
    SameOnBuffer .crcCompute s t m := by
  cases hstep
  refine ⟨m, ?_, h⟩
  rw [exec_crcCompute, h.crcRange_eq _ _ (Nat.min_le_right _ _)]
  rfl

theorem sameOnBuffer_lenDecode (hstep : exec .lenDecode s = .next t) :
    SameOnBuffer .lenDecode s t m := by
  cases hstep
  refine ⟨m, ?_, h⟩
  rw [exec_lenDecode, h.frameLength_eq]
  rfl

theorem sameOnBuffer_syncFind (hstep : exec .syncFind s = .next t) : SameOnBuffer .syncFind s t m := by
  have hsame := h.find_eq s.a.toNat s.searchLimit
  cases hfind : s.buf.find s.lc.toNat s.a.toNat s.searchLimit with
  | none =>
    rw [exec_syncFind_notFound s hfind] at hstep
    cases hstep
    exact ⟨m, exec_syncFind_notFound { s with buf := m } (hsame.trans hfind), h⟩
  | some p =>
    rw [exec_syncFind_found s hfind] at hstep
    cases hstep
    exact ⟨m, exec_syncFind_found { s with buf := m } (hsame.trans hfind), h⟩

theorem sameOnBuffer_framePatch (hstep : exec .framePatch s = .next t) :
    SameOnBuffer .framePatch s t m := by
  have hsame := h.frameLength_eq s.a.toNat
  have htwo := (s.buf.frameLength_bounds s.lc.toNat s.a.toNat).1
  obtain hpast | hin := Nat.lt_or_ge s.opLc (s.opByteIndex + s.buf.frameLength s.opLc s.opByteIndex)
  · rw [exec_framePatch_truncated s rfl hpast] at hstep
    cases hstep
    exact ⟨m, exec_framePatch_truncated { s with buf := m } hsame.symm hpast, h⟩
  · rw [exec_framePatch_patched s rfl hin] at hstep
    cases hstep
    refine ⟨_, (exec_framePatch_patched { s with buf := m } hsame.symm hin).trans ?_,
      h.patchFrame htwo hin⟩
    rw [h.patchCrc_eq htwo hin]
    rfl

theorem sameOnBuffer_runSeek : runSeek { s with buf := m } = { runSeek s with buf := m } := by
  have hsame := h.find_eq 0 s.lc.toNat
  obtain ⟨hfind, heq⟩ | ⟨k, hfind, heq⟩ := runSeek_cases s <;> rw [heq]
  · exact runSeek_noSync { s with buf := m } (hsame.trans hfind)
  · exact runSeek_found { s with buf := m } (hsame.trans hfind)

theorem sameOnBuffer_runIteration :
    ∃ m', runIteration { s with buf := m } = { runIteration s with buf := m' } ∧
      (runIteration s).buf.AgreesBelow s.lc.toNat m' := by
  have hpass : SamePass 0 s { s with buf := m } :=
    ⟨(Nat.zero_add _).symm, (Nat.zero_add _).symm, h, rfl, rfl⟩
  obtain ⟨code, hs, ht⟩ | ⟨m₁, m₂, c, fc, hs, ht, hshows⟩ := hpass.runIteration <;> rw [hs, ht]
  · exact ⟨m, rfl, h⟩
  · exact ⟨m₂, rfl, hshows⟩

theorem sameOnBuffer_run (hstep : exec .run s = .next t) : SameOnBuffer .run s t m := by
  by_cases hphase : s.phase = .runLoop
  · rw [exec_run_of_runLoop s hphase] at hstep
    cases hstep
    obtain ⟨m', heq, hagrees⟩ := sameOnBuffer_runIteration h
    exact ⟨m', by rw [exec_run_of_runLoop { s with buf := m } hphase, heq], hagrees⟩
  · rw [exec_run_of_not_runLoop s hphase] at hstep
    cases hstep
    refine ⟨m, by rw [exec_run_of_not_runLoop { s with buf := m } hphase, sameOnBuffer_runSeek h], ?_⟩
    obtain ⟨-, heq⟩ | ⟨k, -, heq⟩ := runSeek_cases s <;> rw [heq] <;> exact h

theorem sameOnBuffer_exec {i : Instr} (hstep : exec i s = .next t) : SameOnBuffer i s t m := by
  cases i with
  | getBit => exact sameOnBuffer_getBit h hstep
  | setBit => cases hstep; exact ⟨_, rfl, h.setBit _ _⟩
  | setByteAtBit => cases hstep; exact ⟨_, rfl, h.setByteAtBit _ _⟩
  | crcTable => cases hstep; exact ⟨m, rfl, h⟩
  | crcByte => cases hstep; exact ⟨m, rfl, h⟩
  | crcCompute => exact sameOnBuffer_crcCompute h hstep
  | syncFind => exact sameOnBuffer_syncFind h hstep
  | lenDecode => exact sameOnBuffer_lenDecode h hstep
  | framePatch => exact sameOnBuffer_framePatch h hstep
  | run => exact sameOnBuffer_run h hstep

end

/-- Settles O51: every step writes below the length only, and answers the same on a buffer that agrees
there. -/
theorem engineIgnoresBytesPastLength : Obligations.EngineIgnoresBytesPastLength := by
  intro i s t m hagrees hstep
  have h : s.buf.AgreesBelow s.lc.toNat m := fun x hx => by rw [Nat.zero_add, hagrees x hx]
  obtain ⟨m', hother, hbelow⟩ := sameOnBuffer_exec h hstep
  refine ⟨fun x hx => (exec_writesBelow hstep).read_past hx, m', hother, fun x hx => ?_,
    fun x hx => (exec_writesBelow hother).read_past hx⟩
  rw [hbelow x hx, Nat.zero_add]

end Sys2Proof.Machine
end

section
/-! PROOFS. A pass in place is the pass over its trimmed copy, step by step
(spec/42_frame_scanner.md R154). -/

namespace Sys2Proof.Machine

open Safety (TrimmedView)

/-- Two machines past the seek step, with only the engine moving, of which `t` shows `s` through the
trim. -/
structure TrimmedPass (k : Nat) (s t : State) : Prop where
  view : TrimmedView k s t
  agendas : s.agenda = [] ∧ t.agenda = []
  sought : s.phase ≠ .exec

theorem samePass_of_trimmedView {k : Nat} {s t : State} (h : TrimmedView k s t) : SamePass k s t where
  trim := by rw [h.trim, h.trimZero]; rfl
  length := by
    have hlength : t.lc.toNat = s.lc.toNat - k := h.length
    have hin : k ≤ s.lc.toNat := h.inBuffer
    omega
  bytes := h.bytes
  cursor := h.cursor
  frameCount := h.frameCount

/-- One iteration of both passes. -/
theorem trimmedView_runIteration {k : Nat} {s t : State} (h : TrimmedView k s t) :
    TrimmedView k (runIteration s) (runIteration t) := by
  obtain ⟨code, hs, ht⟩ | ⟨m, m', c, fc, hs, ht, hshows⟩ := (samePass_of_trimmedView h).runIteration <;>
    rw [hs, ht]
  · exact { h with phase := rfl, outcome := rfl, result := h.frameCount }
  · exact { h with bytes := hshows, cursor := rfl, frameCount := rfl }

theorem runIteration_agenda (s : State) : (runIteration s).agenda = s.agenda := by
  obtain ⟨code, h⟩ | h := runIteration_completes_or_advances s
  · rw [h]; rfl
  · rw [h.state]

theorem runIteration_phase_ne_exec (s : State) (h : s.phase = .runLoop) :
    (runIteration s).phase ≠ .exec := by
  obtain ⟨code, hdone⟩ | hadv := runIteration_completes_or_advances s
  · rw [hdone]; exact nofun
  · rw [hadv.state]; change s.phase ≠ .exec; rw [h]; exact nofun

/-- Past the seek step both machines step alike: an idle one stays, a pass takes one iteration. -/
theorem TrimmedPass.step {k : Nat} {s t : State} (h : TrimmedPass k s t) :
    ∃ s' t', step s = .next s' ∧ step t = .next t' ∧ TrimmedPass k s' t' := by
  obtain ⟨hs, ht⟩ := h.agendas
  have hphase : t.phase = s.phase := h.view.phase
  cases hp : s.phase with
  | exec => exact absurd hp h.sought
  | idle =>
    refine ⟨s, t, ?_, ?_, h⟩
    · rw [step_of_empty s hs, engineStep_of_idle s hp]
    · rw [step_of_empty t ht, engineStep_of_idle t (hphase.trans hp)]
  | runLoop =>
    exact ⟨_, _, step_of_runLoop s hs hp, step_of_runLoop t ht (hphase.trans hp),
      trimmedView_runIteration h.view,
      ⟨(runIteration_agenda s).trans hs, (runIteration_agenda t).trans ht⟩,
      runIteration_phase_ne_exec s hp⟩

theorem TrimmedPass.core_run {k : Nat} {s t : State} (h : TrimmedPass k s t) (n : Nat) :
    ∃ s' t', Sys2Proof.core.run n s = .next s' ∧ Sys2Proof.core.run n t = .next t' ∧
      TrimmedPass k s' t' := by
  induction n generalizing s t with
  | zero => exact ⟨s, t, rfl, rfl, h⟩
  | succ n ih =>
    obtain ⟨s₁, t₁, hs, ht, h₁⟩ := h.step
    obtain ⟨s', t', hs', ht', h'⟩ := ih h₁
    exact ⟨s', t', (core_run_succ n s s₁ hs).trans hs', (core_run_succ n t t₁ ht).trans ht', h'⟩

/-- The seek step of a machine with only the engine moving. -/
theorem step_of_seek (s : State) {k : Nat} (hagenda : s.agenda = []) (hphase : s.phase = .exec)
    (hcw : s.cw = encode .run) (hfind : s.buf.find s.opLc 0 s.opLc = some k) :
    step s = .next { s with trim := BitVec.ofNat 32 k, phase := .runLoop } := by
  have hdecode : decode s.cw = .ok .run := (decode_eq_ok_iff _ _).mpr hcw
  rw [step_of_empty s hagenda, engineStep_of_decoded s hphase hdecode, exec_run_of_exec s hphase,
    runSeek_found s hfind]

/-- Settles O45: the copy's first marker stands at its index 0, and from there both passes step alike. -/
theorem runInPlaceIsRunOnTrimmedCopy : Obligations.RunInPlaceIsRunOnTrimmedCopy := by
  intro k s t hsAgenda htAgenda hsPhase htPhase hsCw htCw hfind hlength hbytes hcursor hcount houtcome
    hresult n
  obtain ⟨-, hk, hmarker, -⟩ := (Memory.find_some _ _ _ _ _).mp hfind
  have hlc : s.lc.toNat < 2 ^ 32 := s.lc.isLt
  have hshows : s.buf.Shows k t.lc.toNat t.buf := hbytes
  have hfindCopy : t.buf.find t.opLc 0 t.opLc = some 0 := by
    refine (Memory.find_some _ _ _ _ _).mpr
      ⟨Nat.le_refl 0, by rw [State.opLc_eq]; omega, ?_, fun q _ hq => absurd hq (Nat.not_lt_zero q)⟩
    rw [State.opLc_eq, hshows.marker, show k + t.lc.toNat = s.lc.toNat by omega]
    exact hmarker
  have hpass : TrimmedPass k { s with trim := BitVec.ofNat 32 k, phase := .runLoop }
      { t with trim := BitVec.ofNat 32 0, phase := .runLoop } := by
    refine ⟨?_, ⟨hsAgenda, htAgenda⟩, nofun⟩
    exact {
      trim := by rw [BitVec.toNat_ofNat, Nat.mod_eq_of_lt (by omega)]
      trimZero := rfl
      length := hlength
      inBuffer := by change k ≤ s.lc.toNat; omega
      bytes := hbytes
      cursor := hcursor
      frameCount := hcount
      phase := rfl
      outcome := houtcome
      result := hresult }
  obtain ⟨s', t', hs', ht', h'⟩ := hpass.core_run n
  exact ⟨s', t', (core_run_succ n s _ (step_of_seek s hsAgenda hsPhase hsCw hfind)).trans hs',
    (core_run_succ n t _ (step_of_seek t htAgenda htPhase htCw hfindCopy)).trans ht', h'.view⟩

end Sys2Proof.Machine
end
